-- ==== Sys2Proof/Word.lean ====
section
/-!
DEFINITION. The machine's number types (R11, R12, R21, R25 of spec/00_scope.md and spec/10_state.md).
-/

namespace Sys2Proof

/-- An 8-bit value: a general register, a timer, a memory byte, an immediate `nn`. -/
abbrev Byte := BitVec 8

/-- A 16-bit value: `I`, `pc`, a return address, an instruction word. -/
abbrev Word := BitVec 16

/-- A register number, 0 to 15 (R15). -/
abbrev RegIdx := Fin 16

end Sys2Proof
end

