-- ==== Sys2Proof/Syntax.lean ====
section
/-!
DEFINITION. The instruction set as syntax: one constructor for each of the 34 rows of the opcode table
(R85 of spec/30_encoding.md). Register operands are register numbers, immediates `nn` are bytes, and the
address `nnn` and the row count `n` are plain numbers (R15), whose ranges WellFormed checks.
-/

namespace Sys2Proof

/-- One CHIP-8 instruction. Each docstring gives the row's pattern, its syntax and its rule. -/
inductive Instr where
  /-- `00E0` CLS (R210). -/
  | cls
  /-- `00EE` RET (R121). -/
  | ret
  /-- `1NNN` JP nnn (R122). -/
  | jp (nnn : Nat)
  /-- `2NNN` CALL nnn (R123). -/
  | call (nnn : Nat)
  /-- `3XNN` SE Vx, nn (R141). -/
  | seImm (x : RegIdx) (nn : Byte)
  /-- `4XNN` SNE Vx, nn (R142). -/
  | sneImm (x : RegIdx) (nn : Byte)
  /-- `5XY0` SE Vx, Vy (R143). -/
  | seReg (x y : RegIdx)
  /-- `6XNN` LD Vx, nn (R162). -/
  | ldImm (x : RegIdx) (nn : Byte)
  /-- `7XNN` ADD Vx, nn (R163). -/
  | addImm (x : RegIdx) (nn : Byte)
  /-- `8XY0` LD Vx, Vy (R164). -/
  | ldReg (x y : RegIdx)
  /-- `8XY1` OR Vx, Vy (R165). -/
  | orReg (x y : RegIdx)
  /-- `8XY2` AND Vx, Vy (R166). -/
  | andReg (x y : RegIdx)
  /-- `8XY3` XOR Vx, Vy (R167). -/
  | xorReg (x y : RegIdx)
  /-- `8XY4` ADD Vx, Vy (R168). -/
  | addReg (x y : RegIdx)
  /-- `8XY5` SUB Vx, Vy (R169). -/
  | subReg (x y : RegIdx)
  /-- `8XY6` SHR Vx, Vy (R170). -/
  | shr (x y : RegIdx)
  /-- `8XY7` SUBN Vx, Vy (R171). -/
  | subn (x y : RegIdx)
  /-- `8XYE` SHL Vx, Vy (R172). -/
  | shl (x y : RegIdx)
  /-- `9XY0` SNE Vx, Vy (R144). -/
  | sneReg (x y : RegIdx)
  /-- `ANNN` LD I, nnn (R191). -/
  | ldI (nnn : Nat)
  /-- `BNNN` JP V0, nnn (R124). -/
  | jpV0 (nnn : Nat)
  /-- `CXNN` RND Vx, nn (R173). -/
  | rnd (x : RegIdx) (nn : Byte)
  /-- `DXYN` DRW Vx, Vy, n (R211). -/
  | drw (x y : RegIdx) (n : Nat)
  /-- `EX9E` SKP Vx (R145). -/
  | skp (x : RegIdx)
  /-- `EXA1` SKNP Vx (R146). -/
  | sknp (x : RegIdx)
  /-- `FX07` LD Vx, DT (R231). -/
  | ldVxDt (x : RegIdx)
  /-- `FX0A` LD Vx, K (R232). -/
  | ldVxK (x : RegIdx)
  /-- `FX15` LD DT, Vx (R233). -/
  | ldDtVx (x : RegIdx)
  /-- `FX18` LD ST, Vx (R234). -/
  | ldStVx (x : RegIdx)
  /-- `FX1E` ADD I, Vx (R192). -/
  | addI (x : RegIdx)
  /-- `FX29` LD F, Vx (R193). -/
  | ldF (x : RegIdx)
  /-- `FX33` LD B, Vx (R194). -/
  | ldB (x : RegIdx)
  /-- `FX55` LD [I], Vx (R195). -/
  | storeRegs (x : RegIdx)
  /-- `FX65` LD Vx, [I] (R196). -/
  | loadRegs (x : RegIdx)
deriving DecidableEq, Repr

end Sys2Proof
end

