-- ==== Sys2Proof/WellFormed.lean ====
section
/-!
DEFINITION. Which instruction terms the encoding has room for (R15, R81 of spec/): the address `nnn` is 0 to
4095 and the row count `n` is 0 to 15. Register numbers and byte immediates are in range by their type.
-/

namespace Sys2Proof

/-- The address operand fits the 12-bit field `nnn` (R81). -/
def addrFits (nnn : Nat) : Bool := decide (nnn ≤ 0xFFF)

/-- The row count fits the 4-bit field `n` (R81). -/
def rowsFit (n : Nat) : Bool := decide (n ≤ 15)

/-- An instruction some word of the table stands for. -/
def Instr.wf : Instr → Bool
  | .cls | .ret => true
  | .jp nnn | .call nnn | .ldI nnn | .jpV0 nnn => addrFits nnn
  | .drw _ _ n => rowsFit n
  | .seImm _ _ | .sneImm _ _ | .ldImm _ _ | .addImm _ _ | .rnd _ _ => true
  | .seReg _ _ | .sneReg _ _ | .ldReg _ _ | .orReg _ _ | .andReg _ _ | .xorReg _ _ => true
  | .addReg _ _ | .subReg _ _ | .shr _ _ | .subn _ _ | .shl _ _ => true
  | .skp _ | .sknp _ => true
  | .ldVxDt _ | .ldVxK _ | .ldDtVx _ | .ldStVx _ => true
  | .addI _ | .ldF _ | .ldB _ | .storeRegs _ | .loadRegs _ => true

end Sys2Proof
end

