-- ==== Sys2Proof/Decode.lean ====
section
/-!
DEFINITION. The decoder and the encoder, both written from spec/30_encoding.md: the fields of R81, the decode
procedure of R83, the opcode map of R85, and the byte order of R68 (high byte at the lower address).
-/

namespace Sys2Proof

/-! ## Fields (R81) -/

/-- `op`: bits 15 to 12. -/
def fieldOp (w : Word) : BitVec 4 := w.extractLsb' 12 4

/-- `x`: bits 11 to 8, a register number. -/
def fieldX (w : Word) : RegIdx := (w.extractLsb' 8 4).toFin

/-- `y`: bits 7 to 4, a register number. -/
def fieldY (w : Word) : RegIdx := (w.extractLsb' 4 4).toFin

/-- `n`: bits 3 to 0. -/
def fieldN (w : Word) : BitVec 4 := w.extractLsb' 0 4

/-- `nn`: bits 7 to 0. -/
def fieldNN (w : Word) : Byte := w.extractLsb' 0 8

/-- `nnn`: bits 11 to 0, a number from 0 to 4095. -/
def fieldNNN (w : Word) : Nat := (w.extractLsb' 0 12).toNat

/-! ## Words and bytes (R68) -/

/-- The word at two consecutive bytes: the byte at the lower address is bits 15 to 8. -/
def wordOfBytes (hi lo : Byte) : Word := hi ++ lo

/-- Bits 15 to 8 of a word, the byte stored at the lower address. -/
def highByte (w : Word) : Byte := w.extractLsb' 8 8

/-- Bits 7 to 0 of a word, the byte stored at the higher address. -/
def lowByte (w : Word) : Byte := w.extractLsb' 0 8

/-! ## Decoding (R83) -/

/-- Why bytes are no instruction. -/
inductive DecodeError where
  /-- The word matches no row of the opcode table (R87). -/
  | unknownOpcode (w : Word)
  /-- Fewer than two bytes were given. Raised by `decodeBytes` alone; the machine always fetches two. -/
  | truncated
deriving DecidableEq, Repr

/-- Family 0: only `00E0` and `00EE` are instructions (R83, R88). -/
def decodeFamily0 (w : Word) : Option Instr :=
  if w = 0x00E0 then some .cls else if w = 0x00EE then some .ret else none

/-- Family 8: the register-register operations, selected by `n` (R83, R84). -/
def decodeFamily8 (w : Word) : Option Instr :=
  match (fieldN w).toNat with
  | 0x0 => some (.ldReg (fieldX w) (fieldY w))
  | 0x1 => some (.orReg (fieldX w) (fieldY w))
  | 0x2 => some (.andReg (fieldX w) (fieldY w))
  | 0x3 => some (.xorReg (fieldX w) (fieldY w))
  | 0x4 => some (.addReg (fieldX w) (fieldY w))
  | 0x5 => some (.subReg (fieldX w) (fieldY w))
  | 0x6 => some (.shr (fieldX w) (fieldY w))
  | 0x7 => some (.subn (fieldX w) (fieldY w))
  | 0xE => some (.shl (fieldX w) (fieldY w))
  | _ => none

/-- Family E: the key skips, selected by `nn` (R83). -/
def decodeFamilyE (w : Word) : Option Instr :=
  if fieldNN w = 0x9E then some (.skp (fieldX w))
  else if fieldNN w = 0xA1 then some (.sknp (fieldX w))
  else none

/-- Family F: timers, key wait, index and memory, selected by `nn` (R83). -/
def decodeFamilyF (w : Word) : Option Instr :=
  if fieldNN w = 0x07 then some (.ldVxDt (fieldX w))
  else if fieldNN w = 0x0A then some (.ldVxK (fieldX w))
  else if fieldNN w = 0x15 then some (.ldDtVx (fieldX w))
  else if fieldNN w = 0x18 then some (.ldStVx (fieldX w))
  else if fieldNN w = 0x1E then some (.addI (fieldX w))
  else if fieldNN w = 0x29 then some (.ldF (fieldX w))
  else if fieldNN w = 0x33 then some (.ldB (fieldX w))
  else if fieldNN w = 0x55 then some (.storeRegs (fieldX w))
  else if fieldNN w = 0x65 then some (.loadRegs (fieldX w))
  else none

/-- The instruction a word stands for, by its top nibble and then the rest (R83); none where the procedure says
`Unknown`. -/
def instrOfWord (w : Word) : Option Instr :=
  match (fieldOp w).toNat with
  | 0x0 => decodeFamily0 w
  | 0x1 => some (.jp (fieldNNN w))
  | 0x2 => some (.call (fieldNNN w))
  | 0x3 => some (.seImm (fieldX w) (fieldNN w))
  | 0x4 => some (.sneImm (fieldX w) (fieldNN w))
  | 0x5 => if fieldN w = 0 then some (.seReg (fieldX w) (fieldY w)) else none
  | 0x6 => some (.ldImm (fieldX w) (fieldNN w))
  | 0x7 => some (.addImm (fieldX w) (fieldNN w))
  | 0x8 => decodeFamily8 w
  | 0x9 => if fieldN w = 0 then some (.sneReg (fieldX w) (fieldY w)) else none
  | 0xA => some (.ldI (fieldNNN w))
  | 0xB => some (.jpV0 (fieldNNN w))
  | 0xC => some (.rnd (fieldX w) (fieldNN w))
  | 0xD => some (.drw (fieldX w) (fieldY w) (fieldN w).toNat)
  | 0xE => decodeFamilyE w
  | _ => decodeFamilyF w

/-- Decode a word: total, a function of the word alone, rejecting every word outside the table by name (R83, R87). -/
def decodeWord (w : Word) : Except DecodeError Instr :=
  match instrOfWord w with
  | some i => .ok i
  | none => .error (.unknownOpcode w)

/-- Decode the instruction at the head of a list of bytes, and give the rest. Every instruction is two bytes, the
high byte first (R68, R80). -/
def decodeBytes : List Byte → Except DecodeError (Instr × List Byte)
  | hi :: lo :: rest =>
    match decodeWord (wordOfBytes hi lo) with
    | .ok i => .ok (i, rest)
    | .error e => .error e
  | _ => .error .truncated

/-! ## Encoding (R85) -/

/-- A register number in its 4-bit field. -/
def regBits (x : RegIdx) : BitVec 4 := BitVec.ofFin x

/-- A word `op nnn`. -/
def wordAddr (op : BitVec 4) (nnn : Nat) : Word := op ++ BitVec.ofNat 12 nnn

/-- A word `op x nn`. -/
def wordImm (op : BitVec 4) (x : RegIdx) (nn : Byte) : Word := op ++ regBits x ++ nn

/-- A word `op x y n`. -/
def wordRegs (op : BitVec 4) (x y : RegIdx) (n : BitVec 4) : Word := op ++ regBits x ++ regBits y ++ n

/-- The word of an instruction, from the patterns of R85. Defined on every term; an operand that WellFormed refuses
loses the bits its field has no room for. -/
def encode : Instr → Word
  | .cls => 0x00E0
  | .ret => 0x00EE
  | .jp nnn => wordAddr 0x1 nnn
  | .call nnn => wordAddr 0x2 nnn
  | .seImm x nn => wordImm 0x3 x nn
  | .sneImm x nn => wordImm 0x4 x nn
  | .seReg x y => wordRegs 0x5 x y 0x0
  | .ldImm x nn => wordImm 0x6 x nn
  | .addImm x nn => wordImm 0x7 x nn
  | .ldReg x y => wordRegs 0x8 x y 0x0
  | .orReg x y => wordRegs 0x8 x y 0x1
  | .andReg x y => wordRegs 0x8 x y 0x2
  | .xorReg x y => wordRegs 0x8 x y 0x3
  | .addReg x y => wordRegs 0x8 x y 0x4
  | .subReg x y => wordRegs 0x8 x y 0x5
  | .shr x y => wordRegs 0x8 x y 0x6
  | .subn x y => wordRegs 0x8 x y 0x7
  | .shl x y => wordRegs 0x8 x y 0xE
  | .sneReg x y => wordRegs 0x9 x y 0x0
  | .ldI nnn => wordAddr 0xA nnn
  | .jpV0 nnn => wordAddr 0xB nnn
  | .rnd x nn => wordImm 0xC x nn
  | .drw x y n => wordRegs 0xD x y (BitVec.ofNat 4 n)
  | .skp x => wordImm 0xE x 0x9E
  | .sknp x => wordImm 0xE x 0xA1
  | .ldVxDt x => wordImm 0xF x 0x07
  | .ldVxK x => wordImm 0xF x 0x0A
  | .ldDtVx x => wordImm 0xF x 0x15
  | .ldStVx x => wordImm 0xF x 0x18
  | .addI x => wordImm 0xF x 0x1E
  | .ldF x => wordImm 0xF x 0x29
  | .ldB x => wordImm 0xF x 0x33
  | .storeRegs x => wordImm 0xF x 0x55
  | .loadRegs x => wordImm 0xF x 0x65

/-- The two bytes of an instruction as a ROM holds them, high byte first (R93). -/
def encodeBytes (i : Instr) : List Byte := [highByte (encode i), lowByte (encode i)]

/-! ## The opcode table (R85) -/

/-- One row of the opcode table: a word belongs to the row when `w & mask == match` (R85). -/
structure OpcodeRow where
  /-- The row's pattern, its mnemonic in opcode_table.json. -/
  pattern : String
  /-- The bits the row fixes, at their values. -/
  bits : Word
  /-- Which bits the row fixes. -/
  mask : Word
deriving DecidableEq, Repr

/-- The word belongs to the row. -/
def OpcodeRow.matches (r : OpcodeRow) (w : Word) : Bool := decide (w &&& r.mask = r.bits)

/-- The row an instruction belongs to, with the match and mask R85 prints for it. -/
def tableRow : Instr → OpcodeRow
  | .cls => ⟨"00E0", 0x00E0, 0xFFFF⟩
  | .ret => ⟨"00EE", 0x00EE, 0xFFFF⟩
  | .jp _ => ⟨"1NNN", 0x1000, 0xF000⟩
  | .call _ => ⟨"2NNN", 0x2000, 0xF000⟩
  | .seImm _ _ => ⟨"3XNN", 0x3000, 0xF000⟩
  | .sneImm _ _ => ⟨"4XNN", 0x4000, 0xF000⟩
  | .seReg _ _ => ⟨"5XY0", 0x5000, 0xF00F⟩
  | .ldImm _ _ => ⟨"6XNN", 0x6000, 0xF000⟩
  | .addImm _ _ => ⟨"7XNN", 0x7000, 0xF000⟩
  | .ldReg _ _ => ⟨"8XY0", 0x8000, 0xF00F⟩
  | .orReg _ _ => ⟨"8XY1", 0x8001, 0xF00F⟩
  | .andReg _ _ => ⟨"8XY2", 0x8002, 0xF00F⟩
  | .xorReg _ _ => ⟨"8XY3", 0x8003, 0xF00F⟩
  | .addReg _ _ => ⟨"8XY4", 0x8004, 0xF00F⟩
  | .subReg _ _ => ⟨"8XY5", 0x8005, 0xF00F⟩
  | .shr _ _ => ⟨"8XY6", 0x8006, 0xF00F⟩
  | .subn _ _ => ⟨"8XY7", 0x8007, 0xF00F⟩
  | .shl _ _ => ⟨"8XYE", 0x800E, 0xF00F⟩
  | .sneReg _ _ => ⟨"9XY0", 0x9000, 0xF00F⟩
  | .ldI _ => ⟨"ANNN", 0xA000, 0xF000⟩
  | .jpV0 _ => ⟨"BNNN", 0xB000, 0xF000⟩
  | .rnd _ _ => ⟨"CXNN", 0xC000, 0xF000⟩
  | .drw _ _ _ => ⟨"DXYN", 0xD000, 0xF000⟩
  | .skp _ => ⟨"EX9E", 0xE09E, 0xF0FF⟩
  | .sknp _ => ⟨"EXA1", 0xE0A1, 0xF0FF⟩
  | .ldVxDt _ => ⟨"FX07", 0xF007, 0xF0FF⟩
  | .ldVxK _ => ⟨"FX0A", 0xF00A, 0xF0FF⟩
  | .ldDtVx _ => ⟨"FX15", 0xF015, 0xF0FF⟩
  | .ldStVx _ => ⟨"FX18", 0xF018, 0xF0FF⟩
  | .addI _ => ⟨"FX1E", 0xF01E, 0xF0FF⟩
  | .ldF _ => ⟨"FX29", 0xF029, 0xF0FF⟩
  | .ldB _ => ⟨"FX33", 0xF033, 0xF0FF⟩
  | .storeRegs _ => ⟨"FX55", 0xF055, 0xF0FF⟩
  | .loadRegs _ => ⟨"FX65", 0xF065, 0xF0FF⟩

/-- One instruction of each row, in the table's order. -/
def rowSamples : List Instr :=
  [.cls, .ret, .jp 0, .call 0, .seImm 0 0, .sneImm 0 0, .seReg 0 0, .ldImm 0 0, .addImm 0 0,
    .ldReg 0 0, .orReg 0 0, .andReg 0 0, .xorReg 0 0, .addReg 0 0, .subReg 0 0, .shr 0 0, .subn 0 0, .shl 0 0,
    .sneReg 0 0, .ldI 0, .jpV0 0, .rnd 0 0, .drw 0 0 0, .skp 0, .sknp 0,
    .ldVxDt 0, .ldVxK 0, .ldDtVx 0, .ldStVx 0, .addI 0, .ldF 0, .ldB 0, .storeRegs 0, .loadRegs 0]

/-- The opcode table of R85: 34 rows in the order the spec prints them. -/
def opcodeTable : List OpcodeRow := rowSamples.map tableRow

/-! ## The host's reading of a table word -/

/-- The instruction the decoder reads from `nbits` table bits `w`: bit 0 is the least significant bit of the one
16-bit word, which the hardware stores high byte first. -/
def decodeTableWord (nbits w : Nat) : Option Instr :=
  let word : Word := BitVec.ofNat 16 (w % 2 ^ nbits)
  match decodeBytes [highByte word, lowByte word] with
  | .ok (i, _) => some i
  | .error _ => none

end Sys2Proof
end

