-- ==== Sys2Proof/Config.lean ====
section
/-!
DEFINITION. What an implementation fixes and the spec leaves open (R10 of spec/00_scope.md), as types, and the
free values, as constants with no body. The parameters' defaults stand in Machine/Parameters.lean.
-/

namespace Sys2Proof

/-- SHIFT_SRC: the operand of `8XY6` and `8XYE` (R10, D8). -/
inductive ShiftSrc where
  /-- The default: shift `V[x]` in place. -/
  | vx
  /-- The alternative: shift `V[y]` into `V[x]`. -/
  | vy
deriving DecidableEq, Repr

/-- FX0A_CHOICE: the key `FX0A` takes when several are down (R10, D6). -/
inductive KeyChoice where
  /-- The default: the lowest-numbered key down. -/
  | lowest
  /-- The alternative: any key down, a free choice. -/
  | anyDown
deriving DecidableEq, Repr

/-- RESET_REGS: what `V`, `I` and the stack entries hold after a load (R10, R282, D21). -/
inductive ResetRegs where
  /-- The default: zero. -/
  | zero
  /-- The alternative: unspecified, a free value each. -/
  | unspecified
deriving DecidableEq, Repr

/-- The parameters the model takes (R10). `font` is FONT, the bytes of 0x000 to 0x04F (R63, D23). -/
structure Config where
  font : List Byte
  resetRegs : ResetRegs
  shiftSrc : ShiftSrc
  keyChoice : KeyChoice
deriving DecidableEq, Repr

/-! ## Free values

Each is applied to a counter of State, so every use is a fresh value. Nothing constrains any of them. -/

/-- The keypad snapshot of a step whose inputs the host has not fixed (R46). -/
opaque Config.freeKeys : Nat → BitVec 16

/-- The random byte of a step whose inputs the host has not fixed (R46, D25). -/
opaque Config.freeRand : Nat → Byte

/-- Which of the keys down `FX0A` takes under FX0A_CHOICE = ANY_DOWN (D6). -/
opaque Config.freeKeyPick : Nat → Nat

/-- A register `V[k]` after a load under RESET_REGS = UNSPECIFIED (R282): load counter, then `k`. -/
opaque Config.freeResetV : Nat → Nat → Byte

/-- `I` after a load under RESET_REGS = UNSPECIFIED (R282). -/
opaque Config.freeResetI : Nat → Word

/-- A stack entry `S[k]` after a load under RESET_REGS = UNSPECIFIED (R282): load counter, then `k`. -/
opaque Config.freeResetS : Nat → Nat → Word

end Sys2Proof
end

