-- ==== Sys2Proof/Machine/Parameters.lean ====
section
/-!
DEFINITION. The defaults of the parameters (R10 of spec/00_scope.md) and the standard font (R63 of spec/20_memory.md).
-/

namespace Sys2Proof.Machine

/-- The standard CHIP-8 font, one row of 5 bytes per glyph (R63).
PRESUMED: the bytes are general knowledge, not the source's (D23, log 23); unsafe for a claim that reads them. -/
def standardFont : List Byte :=
  [0xF0, 0x90, 0x90, 0x90, 0xF0] ++ [0x20, 0x60, 0x20, 0x20, 0x70] ++
  [0xF0, 0x10, 0xF0, 0x80, 0xF0] ++ [0xF0, 0x10, 0xF0, 0x10, 0xF0] ++
  [0x90, 0x90, 0xF0, 0x10, 0x10] ++ [0xF0, 0x80, 0xF0, 0x10, 0xF0] ++
  [0xF0, 0x80, 0xF0, 0x90, 0xF0] ++ [0xF0, 0x10, 0x20, 0x40, 0x40] ++
  [0xF0, 0x90, 0xF0, 0x90, 0xF0] ++ [0xF0, 0x90, 0xF0, 0x10, 0xF0] ++
  [0xF0, 0x90, 0xF0, 0x90, 0x90] ++ [0xE0, 0x90, 0xE0, 0x90, 0xE0] ++
  [0xF0, 0x80, 0x80, 0x80, 0xF0] ++ [0xE0, 0x90, 0x90, 0x90, 0xE0] ++
  [0xF0, 0x80, 0xF0, 0x80, 0xF0] ++ [0xF0, 0x80, 0xF0, 0x80, 0x80]

/-- Every parameter at its default (R10).
DESIGN CHOICE: the spec's own defaults D6, D8, D21, D23 (log 6, log 8, log 21, log 23, log 33); unsafe if the
reference differs. -/
def defaultConfig : Config where
  font := standardFont
  resetRegs := .zero
  shiftSrc := .vx
  keyChoice := .lowest

end Sys2Proof.Machine
end

