-- ==== Sys2Proof/Machine/State.lean ====
section
/-!
DEFINITION. The machine's state as plain data (R20 of spec/10_state.md), the reasons a step can stop, and the state
after reset (R281 of spec/70_reset_and_hazards.md).
-/

namespace Sys2Proof.Machine

/-- RUNNING or HALTED (R35). -/
inductive RunStatus where
  | running
  | halted
deriving DecidableEq, Repr

/-- The fatal conditions and the load error (R251). -/
inductive Condition where
  | unknownOpcode
  | stackOverflow
  | stackUnderflow
  | memoryOutOfBounds
  | keyIndexOutOfRange
  | loadError
deriving DecidableEq, Repr

/-- The fault record (R253). -/
structure FaultRecord where
  /-- Which condition. -/
  code : Condition
  /-- The failing instruction's address. -/
  fpc : Word
  /-- The word, or none for a fetch fault. -/
  fword : Option Word
  /-- The first out-of-range byte address for MemoryOutOfBounds, else none. -/
  faddr : Option Nat
deriving DecidableEq, Repr

/-- The inputs of one step (R46). -/
structure StepInput where
  /-- The keypad snapshot: bit `k` is `K[k]`. -/
  keys : BitVec 16
  /-- The random byte. -/
  rand8 : Byte
deriving DecidableEq, Repr

/-- The signals of one step (R33, R34, R46, R47). The start of the next step overwrites all of them, so none
persists from one step into the next (R20, log 35). -/
structure Signals where
  /-- `K`, the snapshot sampled at the start of the step. -/
  keys : BitVec 16
  /-- `rand8`, the step's random byte. -/
  rand8 : Byte
  /-- `w`, the word fetched in this step; none before the fetch. -/
  word : Option Word
  /-- The "pc already advanced" signal. -/
  advanced : Bool
  /-- `should_render`. -/
  render : Bool
  /-- `should_clear`. -/
  clear : Bool
  /-- `should_beep`. -/
  beep : Bool
deriving DecidableEq, Repr

/-- The bytes that differ from what the load left outside the program: addresses strictly rising, no entry equal to
what an unlisted address reads as (log 36). -/
abbrev Memory := List Host.Cell

/-- The display buffer: 32 rows of 64 pixels; bit `x` of row `y` is `D[y][x]` (R31). -/
abbrev Display := Vector (BitVec 64) 32

/-- The machine's state (R20), the current step's signals, and the model's own fields (log 32, log 33). -/
structure State where
  /-- `V[0..15]` (R21). -/
  v : Vector Byte 16
  /-- `I` (R25). -/
  i : Word
  /-- `pc` (R26). -/
  pc : Word
  /-- `S[0..15]` (R28). -/
  stack : Vector Word 16
  /-- `sp`, the stack depth 0 to 16 (R29). -/
  sp : Fin 17
  /-- `DT` (R30). -/
  dt : Byte
  /-- `ST` (R30). -/
  st : Byte
  /-- `D` (R31). -/
  display : Display
  /-- `M` (R60). -/
  mem : Memory
  /-- The run status (R35). -/
  run : RunStatus
  /-- The fault record, or NONE (R253). -/
  fault : Option FaultRecord
  /-- The signals of the current or most recent step. -/
  sig : Signals
  /-- The model's own: inputs the host has fixed for the coming steps, next first. -/
  inputs : List StepInput
  /-- The model's own: how many free values have been taken. -/
  draw : Nat
  /-- The model's own: the parameters (R10). No step changes them. -/
  cfg : Config
deriving DecidableEq, Repr

/-- Why a step stops with a fault. -/
inductive Fault where
  /-- A step was requested while `run = HALTED`: no step is defined, the machine is stuck (R35, R45).
  Raised by `step` alone. Safe: nothing is claimed of such a request. -/
  | stepWhileHalted
deriving DecidableEq, Repr

/-- Why a step is refused. -/
inductive Refusal where
  /-- The instruction has no meaning in the model yet. Raised by `exec`'s rejected arms alone, of which none is left.
  Safe: nothing is claimed of a refused step. -/
  | notModelled (mnemonic : String)
deriving DecidableEq, Repr

/-- The signals before any step. DESIGN CHOICE: all zero, never read by a step (log 35); safe. -/
def Signals.idle : Signals where
  keys := 0
  rand8 := 0
  word := none
  advanced := false
  render := false
  clear := false
  beep := false

/-- The machine right after reset: the state after a successful load of an empty program (R280, R281; log 38).
DESIGN CHOICE: `v`, `i` and `stack` are 0, the spec's own default RESET_REGS = ZERO (R282, D21, log 21); unsafe.
DESIGN CHOICE: `inputs` is empty and `draw` is 0 (log 32); safe. -/
def State.reset : State where
  v := Vector.replicate 16 0
  i := 0
  pc := 0x200
  stack := Vector.replicate 16 0
  sp := 0
  dt := 0
  st := 0
  display := Vector.replicate 32 0
  mem := []
  run := .running
  fault := none
  sig := Signals.idle
  inputs := []
  draw := 0
  cfg := defaultConfig

end Sys2Proof.Machine
end

