-- ==== Sys2Proof/Machine/Ops.lean ====
section
/-!
DEFINITION. The named operations over the state that every meaning and the step are written with: registers, stack,
memory, display, signals, taking a fatal condition, and the phases of a step.
-/

namespace Sys2Proof.Machine

/-- What an instruction or a step answers. -/
abbrev Result := Host.Outcome State Fault Refusal

/-! ## Registers (R21, R23, R25) -/

/-- `V[x]`. -/
def State.reg (s : State) (x : RegIdx) : Byte := s.v[x.val]

/-- `V[x] <- b`. No register is hardwired (R21). -/
def State.setReg (s : State) (x : RegIdx) (b : Byte) : State := { s with v := s.v.set x.val b }

/-- `VF <- b`: register 15, written as a flag (R23). -/
def State.setVF (s : State) (b : Byte) : State := s.setReg 15 b

/-- All of `V` at once. -/
def State.setRegs (s : State) (v : Vector Byte 16) : State := { s with v := v }

/-- `I <- a`. -/
def State.setI (s : State) (a : Word) : State := { s with i := a }

/-- `DT <- b`. -/
def State.setDT (s : State) (b : Byte) : State := { s with dt := b }

/-- `ST <- b`. -/
def State.setST (s : State) (b : Byte) : State := { s with st := b }

/-! ## The program counter and the `advanced` signal (R33, R104) -/

/-- `pc <- target; advanced <- 1`: an instruction that sets `pc` itself. -/
def State.jump (s : State) (target : Word) : State :=
  { s with pc := target, sig := { s.sig with advanced := true } }

/-- `advanced <- 1` with `pc` left alone: the same instruction runs in the next step (R107). -/
def State.hold (s : State) : State := { s with sig := { s.sig with advanced := true } }

/-- The skip mechanism (R140): `pc + 4` when the condition holds, `pc + 2` when it does not. -/
def State.skipIf (s : State) (c : Bool) : State := s.jump (if c then s.pc + 4 else s.pc + 2)

/-! ## The call stack (R28, R29) -/

/-- `S[sp] <- a; sp <- sp + 1`; none when the stack already holds 16 return addresses. -/
def State.push? (s : State) (a : Word) : Option State :=
  if h : s.sp.val < 16 then
    some { s with stack := s.stack.set s.sp.val a, sp := ⟨s.sp.val + 1, by omega⟩ }
  else none

/-- `sp <- sp - 1`, and the entry `S[sp]` then at the top; none when the stack is empty. The entry keeps its value. -/
def State.pop? (s : State) : Option (Word × State) :=
  if h : 0 < s.sp.val then
    some (s.stack[s.sp.val - 1]'(by omega), { s with sp := ⟨s.sp.val - 1, by omega⟩ })
  else none

/-! ## Memory (R60 to R69) -/

/-- What an address nothing has written reads as: FONT at 0x000 to 0x04F and 0 elsewhere (R61, R281; log 36). -/
def initialByte (c : Config) (a : Nat) : Byte := if a < 80 then c.font.getD a 0 else 0

/-- The byte at an address. -/
def Memory.read (c : Config) : Memory → Nat → Byte
  | [], a => initialByte c a
  | (k, b) :: rest, a => if a = k then b else Memory.read c rest a

/-- Write one byte, keeping the canonical form: writing what the unlisted address reads as removes the entry. -/
def Memory.write (c : Config) : Memory → Nat → Byte → Memory
  | [], a, b => if b = initialByte c a then [] else [(a, b)]
  | (k, v) :: rest, a, b =>
    if a < k then
      if b = initialByte c a then (k, v) :: rest else (a, b) :: (k, v) :: rest
    else if a = k then
      if b = initialByte c a then rest else (a, b) :: rest
    else (k, v) :: Memory.write c rest a b

/-- Write consecutive bytes from an address upward. -/
def Memory.writeBytes (c : Config) : Memory → Nat → List Byte → Memory
  | m, _, [] => m
  | m, a, b :: bs => Memory.writeBytes c (Memory.write c m a b) (a + 1) bs

/-- The canonical form (log 36): every address exists (R60), addresses strictly rise, and no entry equals what an
unlisted address reads as. -/
def Memory.wf (c : Config) : Memory → Bool
  | [] => true
  | (a, b) :: rest =>
    decide (a ≤ 0xFFF) && decide (b ≠ initialByte c a) && rest.all (fun e => decide (a < e.1)) && Memory.wf c rest

/-- `M[a]` for an address known to exist. -/
def State.byteAt (s : State) (a : Nat) : Byte := Memory.read s.cfg s.mem a

/-- `MemRead(a, 1)` (R66): the byte, or the out-of-range address. -/
def State.memRead (s : State) (a : Nat) : Except Nat Byte :=
  if a ≤ 0xFFF then .ok (s.byteAt a) else .error a

/-- Store consecutive bytes at addresses known to exist (R67). -/
def State.storeBytes (s : State) (a : Nat) (bs : List Byte) : State :=
  { s with mem := Memory.writeBytes s.cfg s.mem a bs }

/-- The first address of 0x1000 or more among the `len` addresses from `a` (R69, R190); none if all exist. -/
def firstOutOfRange (a len : Nat) : Option Nat :=
  if len = 0 then none
  else if a + len - 1 ≤ 0xFFF then none
  else some (if 0x1000 ≤ a then a else 0x1000)

/-! ## The display (R31) -/

/-- `D[y][x]`, coordinates modulo 32 and 64 (R31). -/
def Display.pixel (d : Display) (y x : Nat) : Bool :=
  (d[y % 32]'(Nat.mod_lt _ (by decide))).getLsbD (x % 64)

/-- `D[y][x] <- D[y][x] ^ 1`, coordinates modulo 32 and 64. -/
def Display.flip (d : Display) (y x : Nat) : Display :=
  d.set (y % 32) ((d[y % 32]'(Nat.mod_lt _ (by decide))) ^^^ (1#64 <<< (x % 64))) (Nat.mod_lt _ (by decide))

/-- Every pixel 0. -/
def Display.blank : Display := Vector.replicate 32 0

/-- `D <- d`. -/
def State.setDisplay (s : State) (d : Display) : State := { s with display := d }

/-! ## The output flags (R14, R47) -/

/-- `render <- 1`. -/
def State.setRender (s : State) : State := { s with sig := { s.sig with render := true } }

/-- `clear <- 1`. -/
def State.setClear (s : State) : State := { s with sig := { s.sig with clear := true } }

/-! ## Taking a fatal condition (R252, R253, R254) -/

/-- The numeric code of a condition (R251). -/
def Condition.number : Condition → Nat
  | .unknownOpcode => 1
  | .stackOverflow => 2
  | .stackUnderflow => 3
  | .memoryOutOfBounds => 4
  | .keyIndexOutOfRange => 5
  | .loadError => 6

/-- `raise c(pc, w, faddr)`: the machine halts and the record is filled with `pc`, the word fetched in this step
(none before the fetch) and the address; nothing else changes. There is no vector, no saved context and no return
from it (R252, R261): only a load leaves HALTED. -/
def State.raise (s : State) (c : Condition) (faddr : Option Nat) : State :=
  { s with run := .halted, fault := some { code := c, fpc := s.pc, fword := s.sig.word, faddr := faddr } }

/-! ## The phases of a step (R100) -/

/-- One decrement of a timer that is not 0 (R101). -/
def tick (t : Byte) : Byte := if t = 0 then 0 else t - 1

/-- The inputs of the coming step: the host's next pair, or free values where the host has fixed none (R46, log 32). -/
def State.nextInput (s : State) : StepInput :=
  match s.inputs with
  | p :: _ => p
  | [] => { keys := Config.freeKeys s.draw, rand8 := Config.freeRand s.draw }

/-- The start of a step and its phase 1 (R100, R101, R106): the inputs are sampled, every signal starts at 0, both
timers decrement, and `should_beep` is sampled right after. -/
def State.beginStep (s : State) : State :=
  { s with
    dt := tick s.dt
    st := tick s.st
    sig :=
      { keys := s.nextInput.keys
        rand8 := s.nextInput.rand8
        word := none
        advanced := false
        render := false
        clear := false
        beep := decide (tick s.st = 1) }
    inputs := s.inputs.tail
    draw := s.draw + 1 }

/-- `MemRead(pc, 2)` (R68, R70, R102): the word at `pc`, high byte first, or the first address that does not exist. -/
def State.fetch (s : State) : Except Nat Word :=
  match s.memRead s.pc.toNat with
  | .error a => .error a
  | .ok hi =>
    match s.memRead (s.pc.toNat + 1) with
    | .error a => .error a
    | .ok lo => .ok (wordOfBytes hi lo)

/-- The fetched word enters the instruction register (R34). -/
def State.setWord (s : State) (w : Word) : State := { s with sig := { s.sig with word := some w } }

/-- Phase 5 (R104): `pc <- pc + 2` unless the instruction set `pc` itself. A step that ended in a fatal condition has
no phase 5 (R105). -/
def State.endStep (s : State) : State :=
  if s.run = .running ∧ s.sig.advanced = false then { s with pc := s.pc + 2 } else s

/-- Store a word where the next step fetches, high byte first, with `run` RUNNING, no fault record and `pc` where a
fetch succeeds (an address already fetchable is kept, else the entry point 0x200): a load's stand-in for one
instruction (log 38). -/
def State.placeWord (s : State) (w : Word) : State :=
  let base : Word := if s.pc.toNat ≤ 0xFFE then s.pc else 0x200
  let t : State := if s.run = .running then s else { s with run := .running, fault := none }
  ({ t with pc := base }).storeBytes base.toNat [highByte w, lowByte w]

end Sys2Proof.Machine
end

