-- ==== Sys2Proof/Machine/Flags.lean ====
section
/-!
DEFINITION. Every result with a flag, and the order of the two writes (R161, R168 to R172 of spec/43_alu.md).
-/

namespace Sys2Proof.Machine

/-- A condition as the byte `VF` takes: 1 or 0. -/
def flagByte (c : Bool) : Byte := if c then 1 else 0

/-- `V[x] <- r; VF <- f`, the result first and the flag second, so that `VF` ends holding the flag when `x = 15`
(R161, D7). -/
def State.setResult (s : State) (x : RegIdx) (r : Byte) (f : Bool) : State := (s.setReg x r).setVF (flagByte f)

/-- `(a + b) mod 256` (R168). -/
def addResult (a b : Byte) : Byte := BitVec.ofNat 8 (a.toNat + b.toNat)

/-- The carry of `8XY4`: the exact sum exceeds 255 (R168). -/
def addCarry (a b : Byte) : Bool := decide (a.toNat + b.toNat > 255)

/-- `(a - b) mod 256` as integers (R169). -/
def subResult (a b : Byte) : Byte := BitVec.ofInt 8 ((a.toNat : Int) - (b.toNat : Int))

/-- The flag of `8XY5` and `8XY7`: `a > b` strictly (R169, R171). -/
def subNoBorrow (a b : Byte) : Bool := decide (a.toNat > b.toNat)

/-- `a >> 1` (R170). -/
def shrResult (a : Byte) : Byte := a >>> 1

/-- The bit a right shift moves out: bit 0 before the shift (R170). -/
def shrOut (a : Byte) : Bool := a.getLsbD 0

/-- `(a << 1) mod 256` (R172). -/
def shlResult (a : Byte) : Byte := a <<< 1

/-- The bit a left shift moves out: bit 7 before the shift (R172). -/
def shlOut (a : Byte) : Bool := a.getLsbD 7

end Sys2Proof.Machine
end

