-- ==== Sys2Proof/Machine/Operands.lean ====
section
/-!
DEFINITION. The operand forms the instructions use (R82 of spec/30_encoding.md): absolute addresses, the `I`-indexed
block, the glyph address, the shift operand, and the keypad.
-/

namespace Sys2Proof.Machine

/-- `zext_16(nnn)` (R82). DESIGN CHOICE: an address beyond 12 bits, which no word encodes, wraps at 16 bits (log 34). -/
def addrOperand (nnn : Nat) : Word := BitVec.ofNat 16 nnn

/-- `zext_16(V[0]) + zext_16(nnn)`, the target of `BNNN` (R124). -/
def offsetTarget (s : State) (nnn : Nat) : Word := BitVec.ofNat 16 ((s.reg 0).toNat + nnn)

/-- `I` as an address: an exact number (R190). -/
def indexBase (s : State) : Nat := s.i.toNat

/-- `zext_16(V[x]) * 5`, the address of a font glyph (R193). -/
def glyphAddress (s : State) (x : RegIdx) : Word := BitVec.ofNat 16 ((s.reg x).toNat * 5)

/-- `(I + zext_16(V[x])) mod 65536` (R192). -/
def indexSum (s : State) (x : RegIdx) : Word := BitVec.ofNat 16 (s.i.toNat + (s.reg x).toNat)

/-- The operand of `8XY6` and `8XYE`: `V[x]`, or `V[y]` under SHIFT_SRC = VY (R170, R172, D8). -/
def shiftOperand (s : State) (x y : RegIdx) : Byte :=
  match s.cfg.shiftSrc with
  | .vx => s.reg x
  | .vy => s.reg y

/-- The three decimal digits of a byte: hundreds, tens, ones (R194). -/
def bcdDigits (v : Byte) : List Byte :=
  [BitVec.ofNat 8 (v.toNat / 100), BitVec.ofNat 8 (v.toNat / 10 % 10), BitVec.ofNat 8 (v.toNat % 10)]

/-- `V[0]` to `V[x]` in order, the bytes `FX55` stores (R195). -/
def regBlock (s : State) (x : RegIdx) : List Byte := s.v.toList.take (x.val + 1)

/-- `V[k] <- M[a + k]` for every `k` below `count`, in order (R196). -/
def readBlock (s : State) (a : Nat) : Nat → Vector Byte 16
  | 0 => s.v
  | k + 1 => (readBlock s a k).setIfInBounds k (s.byteAt (a + k))

/-- `K[k]` of the step's snapshot (R32). -/
def keyDown (s : State) (k : Nat) : Bool := s.sig.keys.getLsbD k

/-- The numbers of the keys down, lowest first (R232). -/
def keysDown (s : State) : List Nat := (List.range 16).filter (keyDown s)

/-- The key `FX0A` takes, or none while no key is down (R232): the lowest-numbered, or under FX0A_CHOICE = ANY_DOWN
any of them, by a free pick (D6). -/
def chosenKey (s : State) : Option Byte :=
  match keysDown s with
  | [] => none
  | k :: ks =>
    match s.cfg.keyChoice with
    | .lowest => some (BitVec.ofNat 8 k)
    | .anyDown => some (BitVec.ofNat 8 ((k :: ks).getD (Config.freeKeyPick s.draw % (k :: ks).length) k))

end Sys2Proof.Machine
end

