-- ==== Sys2Proof/Machine/Alu.lean ====
section
/-!
DEFINITION. Register loads and arithmetic: 6XNN, 7XNN, 8XY0 to 8XY7, 8XYE, CXNN (spec/43_alu.md). Every operand is
read from the state the instruction starts in, before any write (R160).
-/

namespace Sys2Proof.Machine

/-- `6XNN` LD Vx, nn (R162). -/
def execLdImm (x : RegIdx) (nn : Byte) (s : State) : Result := .next (s.setReg x nn)

/-- `7XNN` ADD Vx, nn (R163): wraps, no flag. -/
def execAddImm (x : RegIdx) (nn : Byte) (s : State) : Result := .next (s.setReg x (addResult (s.reg x) nn))

/-- `8XY0` LD Vx, Vy (R164). -/
def execLdReg (x y : RegIdx) (s : State) : Result := .next (s.setReg x (s.reg y))

/-- `8XY1` OR Vx, Vy (R165): no flag. -/
def execOrReg (x y : RegIdx) (s : State) : Result := .next (s.setReg x (s.reg x ||| s.reg y))

/-- `8XY2` AND Vx, Vy (R166): no flag. -/
def execAndReg (x y : RegIdx) (s : State) : Result := .next (s.setReg x (s.reg x &&& s.reg y))

/-- `8XY3` XOR Vx, Vy (R167): no flag. -/
def execXorReg (x y : RegIdx) (s : State) : Result := .next (s.setReg x (s.reg x ^^^ s.reg y))

/-- `8XY4` ADD Vx, Vy (R168). -/
def execAddReg (x y : RegIdx) (s : State) : Result :=
  .next (s.setResult x (addResult (s.reg x) (s.reg y)) (addCarry (s.reg x) (s.reg y)))

/-- `8XY5` SUB Vx, Vy (R169). -/
def execSubReg (x y : RegIdx) (s : State) : Result :=
  .next (s.setResult x (subResult (s.reg x) (s.reg y)) (subNoBorrow (s.reg x) (s.reg y)))

/-- `8XY6` SHR Vx (R170). -/
def execShr (x y : RegIdx) (s : State) : Result :=
  .next (s.setResult x (shrResult (shiftOperand s x y)) (shrOut (shiftOperand s x y)))

/-- `8XY7` SUBN Vx, Vy (R171). -/
def execSubn (x y : RegIdx) (s : State) : Result :=
  .next (s.setResult x (subResult (s.reg y) (s.reg x)) (subNoBorrow (s.reg y) (s.reg x)))

/-- `8XYE` SHL Vx (R172). -/
def execShl (x y : RegIdx) (s : State) : Result :=
  .next (s.setResult x (shlResult (shiftOperand s x y)) (shlOut (shiftOperand s x y)))

/-- `CXNN` RND Vx, nn (R173): `nn & rand8`, the random byte being the step's input (R46). -/
def execRnd (x : RegIdx) (nn : Byte) (s : State) : Result := .next (s.setReg x (nn &&& s.sig.rand8))

end Sys2Proof.Machine
end

