-- ==== Sys2Proof/Machine/Control.lean ====
section
/-!
DEFINITION. Control transfer: 00EE, 1NNN, 2NNN, BNNN (spec/41_control_flow.md).
-/

namespace Sys2Proof.Machine

/-- `00EE` RET (R121): pop the return address and go there; StackUnderflow on an empty stack. -/
def execRet (s : State) : Result :=
  match s.pop? with
  | none => .next (s.raise .stackUnderflow none)
  | some (target, t) => .next (t.jump target)

/-- `1NNN` JP nnn (R122). -/
def execJp (nnn : Nat) (s : State) : Result := .next (s.jump (addrOperand nnn))

/-- `2NNN` CALL nnn (R123): push `pc + 2` and go to `nnn`; StackOverflow when 16 addresses are held. -/
def execCall (nnn : Nat) (s : State) : Result :=
  match s.push? (s.pc + 2) with
  | none => .next (s.raise .stackOverflow none)
  | some t => .next (t.jump (addrOperand nnn))

/-- `BNNN` JP V0, nnn (R124). -/
def execJpV0 (nnn : Nat) (s : State) : Result := .next (s.jump (offsetTarget s nnn))

end Sys2Proof.Machine
end

