-- ==== Sys2Proof/Machine/Draw.lean ====
section
/-!
DEFINITION. The display: 00E0, DXYN (spec/45_display.md).
-/

namespace Sys2Proof.Machine

/-- The display and the collision flag while a sprite is drawn (R211). -/
structure Canvas where
  display : Display
  collision : Bool
deriving DecidableEq, Repr

/-- One set sprite bit (R211): an on pixel is a collision; the pixel flips. Coordinates wrap on both axes. -/
def Canvas.plot (cv : Canvas) (py px : Nat) : Canvas where
  display := cv.display.flip py px
  collision := cv.collision || cv.display.pixel py px

/-- One sprite row: bit 7 is the leftmost pixel (R211, D17). -/
def Canvas.drawRow (cv : Canvas) (row : Byte) (py x0 : Nat) : Canvas :=
  (List.range 8).foldl (fun acc c => if row.getLsbD (7 - c) then acc.plot py (x0 + c) else acc) cv

/-- `n` sprite rows from address `a`, top to bottom (R211). -/
def Canvas.drawRows (cv : Canvas) (s : State) (a n x0 y0 : Nat) : Canvas :=
  (List.range n).foldl (fun acc r => acc.drawRow (s.byteAt (a + r)) (y0 + r) x0) cv

/-- `00E0` CLS (R210). -/
def execCls (s : State) : Result := .next ((s.setDisplay Display.blank).setClear)

/-- `DXYN` DRW Vx, Vy, n (R211, R213): the coordinates and the sprite are read before `VF` is written; a sprite with
no row reads no memory. -/
def execDrw (x y : RegIdx) (n : Nat) (s : State) : Result :=
  match firstOutOfRange (indexBase s) n with
  | some a => .next (s.raise .memoryOutOfBounds (some a))
  | none =>
    let cv := (Canvas.mk s.display false).drawRows s (indexBase s) n (s.reg x).toNat (s.reg y).toNat
    .next (((s.setDisplay cv.display).setVF (flagByte cv.collision)).setRender)

end Sys2Proof.Machine
end

