-- ==== Sys2Proof/Machine/IndexMemory.lean ====
section
/-!
DEFINITION. The index register and memory: ANNN, FX1E, FX29, FX33, FX55, FX65 (spec/44_index_memory.md). A block is
checked whole before the first write, and `I` never changes as a side effect (R190).
-/

namespace Sys2Proof.Machine

/-- `ANNN` LD I, nnn (R191). -/
def execLdI (nnn : Nat) (s : State) : Result := .next (s.setI (addrOperand nnn))

/-- `FX1E` ADD I, Vx (R192): wraps at 16 bits, no flag. -/
def execAddI (x : RegIdx) (s : State) : Result := .next (s.setI (indexSum s x))

/-- `FX29` LD F, Vx (R193): `V[x]` is not masked. -/
def execLdF (x : RegIdx) (s : State) : Result := .next (s.setI (glyphAddress s x))

/-- `FX33` LD B, Vx (R194): three decimal digits at `I`, `I + 1`, `I + 2`. -/
def execLdB (x : RegIdx) (s : State) : Result :=
  match firstOutOfRange (indexBase s) 3 with
  | some a => .next (s.raise .memoryOutOfBounds (some a))
  | none => .next (s.storeBytes (indexBase s) (bcdDigits (s.reg x)))

/-- `FX55` LD [I], Vx (R195): `V[0]` to `V[x]` at `I` to `I + x`. -/
def execStoreRegs (x : RegIdx) (s : State) : Result :=
  match firstOutOfRange (indexBase s) (x.val + 1) with
  | some a => .next (s.raise .memoryOutOfBounds (some a))
  | none => .next (s.storeBytes (indexBase s) (regBlock s x))

/-- `FX65` LD Vx, [I] (R196): `V[0]` to `V[x]` from `I` to `I + x`. -/
def execLoadRegs (x : RegIdx) (s : State) : Result :=
  match firstOutOfRange (indexBase s) (x.val + 1) with
  | some a => .next (s.raise .memoryOutOfBounds (some a))
  | none => .next (s.setRegs (readBlock s (indexBase s) (x.val + 1)))

end Sys2Proof.Machine
end

