-- ==== Sys2Proof/Machine/Skips.lean ====
section
/-!
DEFINITION. Conditional skips: 3XNN, 4XNN, 5XY0, 9XY0, EX9E, EXA1 (spec/42_skips.md).
-/

namespace Sys2Proof.Machine

/-- `3XNN` SE Vx, nn (R141). -/
def execSeImm (x : RegIdx) (nn : Byte) (s : State) : Result := .next (s.skipIf (s.reg x == nn))

/-- `4XNN` SNE Vx, nn (R142). -/
def execSneImm (x : RegIdx) (nn : Byte) (s : State) : Result := .next (s.skipIf (s.reg x != nn))

/-- `5XY0` SE Vx, Vy (R143). -/
def execSeReg (x y : RegIdx) (s : State) : Result := .next (s.skipIf (s.reg x == s.reg y))

/-- `9XY0` SNE Vx, Vy (R144). -/
def execSneReg (x y : RegIdx) (s : State) : Result := .next (s.skipIf (s.reg x != s.reg y))

/-- `EX9E` SKP Vx (R145): KeyIndexOutOfRange when `V[x] > 15`. -/
def execSkp (x : RegIdx) (s : State) : Result :=
  .next (if (s.reg x).toNat ≤ 15 then s.skipIf (keyDown s (s.reg x).toNat) else s.raise .keyIndexOutOfRange none)

/-- `EXA1` SKNP Vx (R146): KeyIndexOutOfRange when `V[x] > 15`. -/
def execSknp (x : RegIdx) (s : State) : Result :=
  .next (if (s.reg x).toNat ≤ 15 then s.skipIf (!keyDown s (s.reg x).toNat) else s.raise .keyIndexOutOfRange none)

end Sys2Proof.Machine
end

