-- ==== Sys2Proof/Machine/TimersKeys.lean ====
section
/-!
DEFINITION. Timers and key wait: FX07, FX0A, FX15, FX18 (spec/46_timers_keys.md). The timers have already been
decremented when an instruction runs (R101, R230).
-/

namespace Sys2Proof.Machine

/-- `FX07` LD Vx, DT (R231). -/
def execLdVxDt (x : RegIdx) (s : State) : Result := .next (s.setReg x s.dt)

/-- `FX0A` LD Vx, K (R232): while no key is down the same instruction runs again in the next step. -/
def execLdVxK (x : RegIdx) (s : State) : Result :=
  .next (match chosenKey s with
    | none => s.hold
    | some k => s.setReg x k)

/-- `FX15` LD DT, Vx (R233). -/
def execLdDtVx (x : RegIdx) (s : State) : Result := .next (s.setDT (s.reg x))

/-- `FX18` LD ST, Vx (R234): `should_beep` of this step is already sampled (R106). -/
def execLdStVx (x : RegIdx) (s : State) : Result := .next (s.setST (s.reg x))

end Sys2Proof.Machine
end

