-- ==== Sys2Proof/Machine/Step.lean ====
section
/-!
DEFINITION. One step of the machine (R100 of spec/40_step.md), and where the next step fetches.
-/

namespace Sys2Proof.Machine

/-- One invocation of `step()` (R100): phase 1 timers, phase 2 fetch, phase 3 decode, phase 4 execute, phase 5
advance. A fatal condition is taken: the answer is the halted machine (R105, R252; log 31). No step is defined while
HALTED (R35). -/
def step (s : State) : Host.Outcome State Fault Refusal :=
  match s.run with
  | .halted => .fault .stepWhileHalted
  | .running =>
    match s.beginStep.fetch with
    | .error a => .next (s.beginStep.raise .memoryOutOfBounds (some a))
    | .ok w =>
      match decodeWord w with
      | .error _ => .next ((s.beginStep.setWord w).raise .unknownOpcode none)
      | .ok i =>
        match exec i (s.beginStep.setWord w) with
        | .next t => .next t.endStep
        | .fault f => .fault f
        | .refused r => .refused r

/-- The state with one instruction's bits stored where `step` fetches its next instruction. -/
def State.withFetchWord (s : State) (nbits w : Nat) : State := s.placeWord (BitVec.ofNat 16 (w % 2 ^ nbits))

end Sys2Proof.Machine
end

