-- ==== Sys2Proof/Machine/Ports.lean ====
section
/-!
DEFINITION. The host's ports: load and construction (R280 to R284 of spec/70_reset_and_hazards.md), and the display,
status and output ports (R47 to R50 of spec/10_state.md).
-/

namespace Sys2Proof.Machine

/-- The general registers after a load: zero, or free values under RESET_REGS = UNSPECIFIED (R282). -/
def resetV (c : Config) (draw : Nat) : Vector Byte 16 :=
  match c.resetRegs with
  | .zero => Vector.replicate 16 0
  | .unspecified => Vector.ofFn fun k => Config.freeResetV draw k.val

/-- `I` after a load (R282). -/
def resetI (c : Config) (draw : Nat) : Word :=
  match c.resetRegs with
  | .zero => 0
  | .unspecified => Config.freeResetI draw

/-- The stack entries after a load (R282). -/
def resetStack (c : Config) (draw : Nat) : Vector Word 16 :=
  match c.resetRegs with
  | .zero => Vector.replicate 16 0
  | .unspecified => Vector.ofFn fun k => Config.freeResetS draw k.val

/-- The counter of free values after a load: a load that takes free values moves it on (log 32). -/
def drawAfterLoad (c : Config) (draw : Nat) : Nat :=
  match c.resetRegs with
  | .zero => draw
  | .unspecified => draw + 1

/-- The state a successful load leaves (R280, R281). -/
def State.loaded (s : State) (program : List Byte) : State where
  v := resetV s.cfg s.draw
  i := resetI s.cfg s.draw
  pc := 0x200
  stack := resetStack s.cfg s.draw
  sp := 0
  dt := 0
  st := 0
  display := Display.blank
  mem := Memory.writeBytes s.cfg [] 0x200 program
  run := .running
  fault := none
  sig := Signals.idle
  inputs := s.inputs
  draw := drawAfterLoad s.cfg s.draw
  cfg := s.cfg

/-- LoadError: the length of the program that did not fit (R251, R259). -/
structure LoadError where
  length : Nat
deriving DecidableEq, Repr

/-- `load(program_bytes)` (R280): the machine afterwards, and the error if there is one. The size is checked first,
so a failed load changes nothing (R283). -/
def State.load (s : State) (program : List Byte) : State × Option LoadError :=
  if program.length ≤ 3584 then (s.loaded program, none) else (s, some ⟨program.length⟩)

/-- A constructed machine that was never loaded (R284): FONT in memory, everything else 0, HALTED with no fault
record, so no step is defined. -/
def State.constructed : State := { State.reset with pc := 0, run := .halted }

/-- The display port (R48): the pixel in column `x` of row `y`. -/
def State.displayPort (s : State) : Fin 32 → Fin 64 → Bool := fun y x => s.display.pixel y.val x.val

/-- The three output flags of a step. -/
structure OutputFlags where
  shouldRender : Bool
  shouldClear : Bool
  shouldBeep : Bool
deriving DecidableEq, Repr

/-- The flags the step that ended in this state returned: none for a step that ended in a fault (R47, R105). -/
def State.outputPort (s : State) : Option OutputFlags :=
  match s.run with
  | .halted => none
  | .running => some ⟨s.sig.render, s.sig.clear, s.sig.beep⟩

/-- What the status and debug port shows (R50). -/
structure StatusDump where
  run : RunStatus
  fault : Option FaultRecord
  v : Vector Byte 16
  i : Word
  pc : Word
  stack : Vector Word 16
  sp : Fin 17
  dt : Byte
  st : Byte
  /-- The word at `pc`; none where a fetch would fault. -/
  wordAtPc : Option Word
deriving DecidableEq, Repr

/-- The status and debug port (R50). -/
def State.statusPort (s : State) : StatusDump where
  run := s.run
  fault := s.fault
  v := s.v
  i := s.i
  pc := s.pc
  stack := s.stack
  sp := s.sp
  dt := s.dt
  st := s.st
  wordAtPc := s.fetch.toOption

end Sys2Proof.Machine
end

