-- ==== Sys2Proof/Safety.lean ====
section
/-!
DEFINITION. The terms claims are stated in: the parts of the state and what a frame is, the instruction a step runs,
which instruction may write what (R22, R25, R28, R30, R31, R60 of spec/), the closed form of a sprite (R211), and the
invariant every step keeps.
-/

namespace Sys2Proof.Machine

/-! ## Frames -/

/-- The parts of the state a claim can say are unchanged. -/
inductive Part where
  | regs
  | index
  | pc
  | stack
  | depth
  | delay
  | sound
  | display
  | memory
  | run
  | faultRecord
  | advanced
  | render
  | clear
  | beep
  | stepInputs
  | word
  | schedule
  | parameters
deriving DecidableEq, Repr

/-- The part has the same contents in both states. Registers, pixels and memory are compared through their reads. -/
def Part.same (s t : State) : Part → Prop
  | .regs => ∀ r, t.reg r = s.reg r
  | .index => t.i = s.i
  | .pc => t.pc = s.pc
  | .stack => t.stack = s.stack
  | .depth => t.sp = s.sp
  | .delay => t.dt = s.dt
  | .sound => t.st = s.st
  | .display => ∀ y x, t.display.pixel y x = s.display.pixel y x
  | .memory => ∀ a, t.byteAt a = s.byteAt a
  | .run => t.run = s.run
  | .faultRecord => t.fault = s.fault
  | .advanced => t.sig.advanced = s.sig.advanced
  | .render => t.sig.render = s.sig.render
  | .clear => t.sig.clear = s.sig.clear
  | .beep => t.sig.beep = s.sig.beep
  | .stepInputs => t.sig.keys = s.sig.keys ∧ t.sig.rand8 = s.sig.rand8
  | .word => t.sig.word = s.sig.word
  | .schedule => t.inputs = s.inputs ∧ t.draw = s.draw
  | .parameters => t.cfg = s.cfg

/-- Every part but those named is unchanged from `s` to `t`. -/
def Frame (changed : List Part) (s t : State) : Prop := ∀ p : Part, p ∉ changed → p.same s t

/-- Every general register but those named is unchanged. -/
def RegsExcept (changed : List RegIdx) (s t : State) : Prop := ∀ r, r ∉ changed → t.reg r = s.reg r

/-- Every byte outside the `len` bytes from `a` reads as before. -/
def MemoryExcept (a len : Nat) (s t : State) : Prop := ∀ b, b < a ∨ a + len ≤ b → t.byteAt b = s.byteAt b

/-- The machine halted on a condition in the state `s`, with the record R253 asks for, and nothing else changed. -/
def HaltedBy (c : Condition) (faddr : Option Nat) (s t : State) : Prop :=
  t.run = .halted ∧ t.fault = some ⟨c, s.pc, s.sig.word, faddr⟩ ∧ Frame [.run, .faultRecord] s t

/-! ## The instruction a step runs -/

/-- A step from `s` fetches the word `w`, and `w` decodes to `i`. -/
def Runs (s : State) (w : Word) (i : Instr) : Prop :=
  s.run = .running ∧ s.fetch = .ok w ∧ decodeWord w = .ok i

/-- The state the instruction of a step executes in: after phase 1 and the fetch (R100). -/
def execState (s : State) (w : Word) : State := s.beginStep.setWord w

/-- The instruction may set `pc` itself (R104). -/
def setsPc : Instr → Bool
  | .ret | .jp _ | .call _ | .jpV0 _ => true
  | .seImm _ _ | .sneImm _ _ | .seReg _ _ | .sneReg _ _ | .skp _ | .sknp _ => true
  | .ldVxK _ => true
  | .cls | .ldImm _ _ | .addImm _ _ | .ldReg _ _ | .orReg _ _ | .andReg _ _ | .xorReg _ _ => false
  | .addReg _ _ | .subReg _ _ | .shr _ _ | .subn _ _ | .shl _ _ | .rnd _ _ => false
  | .ldI _ | .addI _ | .ldF _ | .ldB _ | .storeRegs _ | .loadRegs _ => false
  | .drw _ _ _ | .ldVxDt _ | .ldDtVx _ | .ldStVx _ => false

/-! ## Which instruction may write what -/

/-- The general registers an instruction may write (R22). -/
def writtenRegs : Instr → List RegIdx
  | .ldImm x _ | .addImm x _ | .ldReg x _ | .orReg x _ | .andReg x _ | .xorReg x _ | .rnd x _ => [x]
  | .addReg x _ | .subReg x _ | .shr x _ | .subn x _ | .shl x _ => [x, 15]
  | .ldVxDt x | .ldVxK x => [x]
  | .loadRegs x => (List.finRange 16).filter (fun r => decide (r ≤ x))
  | .drw _ _ _ => [15]
  | .cls | .ret | .jp _ | .call _ | .jpV0 _ => []
  | .seImm _ _ | .sneImm _ _ | .seReg _ _ | .sneReg _ _ | .skp _ | .sknp _ => []
  | .ldI _ | .addI _ | .ldF _ | .ldB _ | .storeRegs _ | .ldDtVx _ | .ldStVx _ => []

/-- The parts an instruction may change while the machine stays RUNNING (R22, R25, R28, R30, R31, R47, R60, R104). -/
def mayChange : Instr → List Part
  | .cls => [.display, .clear]
  | .ret => [.pc, .advanced, .depth]
  | .call _ => [.pc, .advanced, .stack, .depth]
  | .jp _ | .jpV0 _ => [.pc, .advanced]
  | .seImm _ _ | .sneImm _ _ | .seReg _ _ | .sneReg _ _ | .skp _ | .sknp _ => [.pc, .advanced]
  | .ldImm _ _ | .addImm _ _ | .ldReg _ _ | .orReg _ _ | .andReg _ _ | .xorReg _ _ | .rnd _ _ => [.regs]
  | .addReg _ _ | .subReg _ _ | .shr _ _ | .subn _ _ | .shl _ _ => [.regs]
  | .ldI _ | .addI _ | .ldF _ => [.index]
  | .ldB _ | .storeRegs _ => [.memory]
  | .loadRegs _ | .ldVxDt _ => [.regs]
  | .ldVxK _ => [.regs, .advanced]
  | .ldDtVx _ => [.delay]
  | .ldStVx _ => [.sound]
  | .drw _ _ _ => [.regs, .display, .render]

/-! ## Sprites (R211) -/

/-- The sprite of `n` rows at address `a`, drawn with its top-left pixel at column `x0` and row `y0`, has a set bit on
column `x` of row `y`: row `r` of the sprite lands on row `(y0 + r) mod 32` and its bit `7 - c` on column
`(x0 + c) mod 64`. -/
def spriteCovers (s : State) (a n x0 y0 y x : Nat) : Prop :=
  ∃ r c, r < n ∧ c < 8 ∧ (s.byteAt (a + r)).getLsbD (7 - c) = true ∧ y = (y0 + r) % 32 ∧ x = (x0 + c) % 64

/-! ## Stores and the next fetch (R76) -/

/-- `b` is what address `a` holds once `block` is stored at `I` of `s`: the block's byte where it covers the address, the
old byte where it does not. -/
def StoredByte (s : State) (block : List Byte) (a : Nat) (b : Byte) : Prop :=
  (∀ k (h : k < block.length), s.i.toNat + k = a → b = block[k]) ∧
    ((∀ k, k < block.length → s.i.toNat + k ≠ a) → b = s.byteAt a)

/-- The step from `s` completes, and the next fetch reads the word after the instruction's own with `block` stored at
`I`. -/
def NextFetchReads (s : State) (block : List Byte) : Prop :=
  ∃ t hi lo, step s = .next t ∧ t.run = .running ∧ t.fetch = .ok (wordOfBytes hi lo) ∧
    StoredByte s block (s.pc.toNat + 2) hi ∧ StoredByte s block (s.pc.toNat + 3) lo

/-! ## Waiting -/

/-- The machine stands on a jump to itself (R109). -/
def IdleAt (s : State) : Prop := ∃ w, Runs s w (.jp s.pc.toNat)

/-- The next `k` steps have their inputs fixed by the host, with no key down in any of them. -/
def NoKeyFor (k : Nat) (s : State) : Prop := k ≤ s.inputs.length ∧ ∀ p ∈ s.inputs.take k, p.keys = 0

/-- The state without the random byte its last step received. -/
def State.forgetRand (s : State) : State := { s with sig := { s.sig with rand8 := 0 } }

/-- The state without the keypad snapshot its last step received. -/
def State.forgetKeys (s : State) : State := { s with sig := { s.sig with keys := 0 } }

/-! ## The invariant -/

/-- The fault record as R253 describes it: the failing `pc`, a condition of a step (R251), and an address exactly for
MemoryOutOfBounds, which does not exist. -/
def RecordWf (pc : Word) (r : FaultRecord) : Prop :=
  r.fpc = pc ∧ r.code ≠ .loadError ∧ (r.faddr.isSome = true ↔ r.code = .memoryOutOfBounds) ∧
    ∀ a, r.faddr = some a → 0x1000 ≤ a

/-- What every step keeps: memory in its canonical form, `pc` and the live return addresses in the ranges of R27, no
fault record while RUNNING (R35, R253), and a well-formed record otherwise. -/
structure Inv (s : State) : Prop where
  mem_wf : Memory.wf s.cfg s.mem = true
  pc_le : s.pc.toNat ≤ 0x10FE
  stack_le : ∀ k : Fin 16, k.val < s.sp.val → s.stack[k.val].toNat ≤ 0x1000
  running_no_fault : s.run = .running → s.fault = none
  record_wf : ∀ r, s.fault = some r → RecordWf s.pc r

end Sys2Proof.Machine
end

