-- ==== Sys2Proof/Certificates/Slice0/Obligations.lean ====
section
/-!
DEFINITION. The statements for the provers, from the numbered rules of spec/. Their terms (Frame, HaltedBy, Runs, Inv and
the rest) stand in Sys2Proof/Safety.lean. Where a statement rests on a choice the spec marks as its own, its docstring
names the decision and the log entry.
-/

open Sys2Proof Sys2Proof.Machine

/-! ## Load and reset -/

/-- A load of at most 3584 bytes leaves the post-load state of R281: program, font and zeroes in memory, `pc` 0x200, an
empty stack, stopped timers, a clear display, RUNNING with no record. `V`, `I` and the stack entries are 0 only under
RESET_REGS = ZERO, the spec's own default (D21, log 21). -/
def Obligations.LoadLeavesPostLoadState : Prop :=
  ∀ (s : State) (p : List Byte), p.length ≤ 3584 →
    ∃ t, s.load p = (t, none) ∧ t.pc = 0x200 ∧ t.sp = 0 ∧ t.dt = 0 ∧ t.st = 0 ∧ t.run = .running ∧ t.fault = none ∧
      (∀ y x, t.display.pixel y x = false) ∧
      (s.cfg.resetRegs = .zero → (∀ r, t.reg r = 0) ∧ t.i = 0 ∧ ∀ k : Fin 16, t.stack[k.val] = 0) ∧
      (∀ k (h : k < p.length), t.byteAt (0x200 + k) = p[k]) ∧
      (∀ a, a < 80 → t.byteAt a = s.cfg.font.getD a 0) ∧
      (∀ a, 80 ≤ a → a < 0x200 ∨ 0x200 + p.length ≤ a → t.byteAt a = 0) ∧ t.cfg = s.cfg

/-- The model's reset state is what loading an empty program leaves (log 38), it meets the invariant, and the machine
before its first load has no step (R284, D27, log 27). -/
def Obligations.ResetIsTheEmptyLoad : Prop :=
  State.constructed.load [] = (State.reset, none) ∧ Inv State.reset ∧
    step State.constructed = .fault .stepWhileHalted

/-- A load of more than 3584 bytes raises LoadError, code 6, with the length, and changes no state (R259, R283). The number
6 is the spec's own label (D4, log 4), and that a failed load changes nothing at all is the spec's own decision (D27, log
27). -/
def Obligations.OversizedLoadChangesNothing : Prop :=
  ∀ (s : State) (p : List Byte), 3584 < p.length →
    s.load p = (s, some ⟨p.length⟩) ∧ Condition.loadError.number = 6

/-- Whatever the state before it, a successful load leaves the invariant true. -/
def Obligations.LoadEstablishesInvariant : Prop :=
  ∀ (s t : State) (p : List Byte), s.load p = (t, none) → Inv t

/-! ## Encoding -/

/-- Decoding the encoding of any well-formed instruction gives it back, with every operand (R81, R85). -/
def Obligations.DecodeOfEncode : Prop :=
  ∀ i : Instr, i.wf = true → decodeWord (encode i) = .ok i

/-- Every word the decoder accepts is the encoding of the instruction it decodes to, which is well-formed: no bit of
the word is lost. -/
def Obligations.EncodeOfDecode : Prop :=
  ∀ (w : Word) (i : Instr), decodeWord w = .ok i → i.wf = true ∧ encode i = w

/-- The opcode table has 34 rows, and a word decodes exactly when it matches a row, to an instruction of that row (R83,
R85, R87). That only the 34 rows decode, with the low nibble of families 5 and 9 exact and every other `0NNN` illegal, is
the spec's own decision (D12, D29, log 12, log 29). -/
def Obligations.DecodeFollowsOpcodeTable : Prop :=
  opcodeTable.length = 34 ∧
    (∀ (w : Word) (i : Instr), decodeWord w = .ok i → tableRow i ∈ opcodeTable ∧ (tableRow i).matches w = true) ∧
    (∀ (w : Word) (r : OpcodeRow), r ∈ opcodeTable → r.matches w = true →
      ∃ i, decodeWord w = .ok i ∧ tableRow i = r)

/-- No word matches two rows of the table, so decoding needs no priority order (R86). -/
def Obligations.OpcodeRowsAreDisjoint : Prop :=
  ∀ (w : Word) (r q : OpcodeRow), r ∈ opcodeTable → q ∈ opcodeTable →
    r.matches w = true → q.matches w = true → r = q

/-- The illegal words are exactly the ranges R87 lists, and each is rejected by name. Strict decoding of the low nibble
of families 5 and 9 is the spec's own choice (D12, log 12). -/
def Obligations.IllegalWordsAreRejected : Prop :=
  ∀ w : Word, decodeWord w = .error (.unknownOpcode w) ↔
    (fieldOp w = 0 ∧ w ≠ 0x00E0 ∧ w ≠ 0x00EE) ∨ (fieldOp w = 5 ∧ fieldN w ≠ 0) ∨
      (fieldOp w = 8 ∧ fieldN w ∈ ([8, 9, 0xA, 0xB, 0xC, 0xD, 0xF] : List (BitVec 4))) ∨
      (fieldOp w = 9 ∧ fieldN w ≠ 0) ∨
      (fieldOp w = 0xE ∧ fieldNN w ∉ ([0x9E, 0xA1] : List Byte)) ∨
      (fieldOp w = 0xF ∧ fieldNN w ∉ ([0x07, 0x0A, 0x15, 0x18, 0x1E, 0x29, 0x33, 0x55, 0x65] : List Byte))

/-- Words written out from the spec's encodings, one per family at least, decode to the instructions they stand for. -/
def Obligations.WrittenWordsDecode : Prop :=
  decodeWord 0x2ABC = .ok (.call 0xABC) ∧ decodeWord 0x3A42 = .ok (.seImm 0xA 0x42) ∧
    decodeWord 0x8675 = .ok (.subReg 6 7) ∧ decodeWord 0xD125 = .ok (.drw 1 2 5) ∧
    decodeWord 0xFF65 = .ok (.loadRegs 0xF) ∧ decodeWord 0xF50A = .ok (.ldVxK 5) ∧
    decodeWord 0x8128 = .error (.unknownOpcode 0x8128)

/-! ## The step -/

/-- A step runs the decoded instruction (R100): where the word at `pc` decodes to `i`, the step is `exec i` in the state
after phase 1 and the fetch, followed by phase 5. That state differs from the one before the step only in the timers, each
decremented once, the signals, and the inputs taken. -/
def Obligations.StepRunsDecodedInstruction : Prop :=
  ∀ (s : State) (w : Word) (i : Instr), Runs s w i →
    ∃ t, exec i (execState s w) = .next t ∧
      step s = .next (if t.run = .running ∧ t.sig.advanced = false then { t with pc := t.pc + 2 } else t) ∧
      (execState s w).dt.toNat = s.dt.toNat - 1 ∧ (execState s w).st.toNat = s.st.toNat - 1 ∧
      (execState s w).sig = ⟨s.nextInput.keys, s.nextInput.rand8, some w, false, false, false, decide (s.st.toNat = 2)⟩ ∧
      Frame [.delay, .sound, .advanced, .render, .clear, .beep, .stepInputs, .word, .schedule] s (execState s w)

/-- Every instruction answers a next state from every state: none faults and none is refused, so a step from RUNNING
always has a next state, and a step from HALTED has none (R35, R100). That HALTED is stuck is the spec's model of "the
run terminates" (D3, log 3, log 31). -/
def Obligations.StepDefinedExactlyWhenRunning : Prop :=
  (∀ (i : Instr) (s : State), ∃ t, exec i s = .next t) ∧
    ∀ s : State, (s.run = .running → ∃ t, step s = .next t) ∧
      (s.run = .halted → step s = .fault .stepWhileHalted)

/-- The fetch reads `M[pc] << 8 | M[pc+1]` where `pc + 1 <= 0xFFF`; otherwise the step halts with MemoryOutOfBounds, the
record carrying `pc`, no word, and the first address that does not exist (R102). The HALTED state and its record are the
spec's model of a fatal condition (D3, log 3, log 31). -/
def Obligations.FetchReadsTwoBytesOrHalts : Prop :=
  ∀ s : State,
    (s.pc.toNat + 1 ≤ 0xFFF →
      ∃ w, s.fetch = .ok w ∧ w.toNat = (s.byteAt s.pc.toNat).toNat * 256 + (s.byteAt (s.pc.toNat + 1)).toNat) ∧
    (0xFFF < s.pc.toNat + 1 → s.run = .running →
      ∃ t, step s = .next t ∧
        HaltedBy .memoryOutOfBounds (some (if s.pc.toNat = 0xFFF then 0x1000 else s.pc.toNat)) s.beginStep t ∧
        t.fault = some ⟨.memoryOutOfBounds, s.pc, none, some (if s.pc.toNat = 0xFFF then 0x1000 else s.pc.toNat)⟩)

/-- A fetched word that matches no row of the opcode table halts the machine with UnknownOpcode, `pc` and the word
(R103). The HALTED state and its record are the spec's model of a fatal condition (D3, log 3, log 31). -/
def Obligations.UnknownOpcodeHalts : Prop :=
  ∀ (s : State) (w : Word), s.run = .running → s.fetch = .ok w →
    (∀ r ∈ opcodeTable, r.matches w = false) →
    ∃ t, step s = .next t ∧ HaltedBy .unknownOpcode none (execState s w) t ∧
      t.fault = some ⟨.unknownOpcode, s.pc, some w, none⟩

/-- Faults are precise: a step that ends HALTED changed only the timers, which decremented once, the run status, the
record, and the signals of the step; the record names the failing `pc`. That the instruction writes nothing is the
spec's own decision (R252, R254: D3, D18, log 3, log 18). -/
def Obligations.FaultsArePrecise : Prop :=
  ∀ s t : State, step s = .next t → t.run = .halted →
    Frame [.delay, .sound, .run, .faultRecord, .advanced, .render, .clear, .beep, .stepInputs, .word, .schedule] s t ∧
      t.dt.toNat = s.dt.toNat - 1 ∧ t.st.toNat = s.st.toNat - 1 ∧ t.stack = s.stack ∧ t.mem = s.mem ∧
      t.display = s.display ∧ ∃ r, t.fault = some r ∧ RecordWf s.pc r ∧ (∀ w, s.fetch = .ok w → r.fword = some w) ∧
        (∀ a, s.fetch = .error a → r.fword = none ∧ r.code = .memoryOutOfBounds)

/-- In every step each timer that is not 0 is decremented by one, before the instruction runs, whether the step waits,
completes or faults; a timer an instruction writes holds the written value until the next step (R101). -/
def Obligations.TimersDecrementEveryStep : Prop :=
  ∀ s t : State, step s = .next t →
    ((∀ w x, ¬ Runs s w (.ldDtVx x)) → t.dt.toNat = s.dt.toNat - 1) ∧
      ((∀ w x, ¬ Runs s w (.ldStVx x)) → t.st.toNat = s.st.toNat - 1) ∧
      (∀ w x, Runs s w (.ldDtVx x) → t.dt = s.reg x) ∧ (∀ w x, Runs s w (.ldStVx x) → t.st = s.reg x)

/-- `should_beep` is reported in exactly the steps where, after the decrement, the sound timer equals 1 (R236), also by a
step that then writes the sound timer. That the flag is sampled before the instruction's write is the spec's own decision
(D19, log 19), and so is that a step which ends in a fault, left out here, reports no flags (D20, log 20). -/
def Obligations.BeepExactlyWhenSoundTimerReachesOne : Prop :=
  ∀ s t : State, step s = .next t → t.run = .running →
    ∃ f, t.outputPort = some f ∧ (f.shouldBeep = true ↔ s.st.toNat - 1 = 1)

/-- A step that completes reports `should_render` exactly when it ran `DXYN` and `should_clear` exactly when it ran
`00E0`, and a step that ends HALTED reports no flags (R47). That the flags start at 0 each step and that a faulting step
reports none is the spec's own decision (D20, log 20). -/
def Obligations.RenderAndClearReportTheirInstruction : Prop :=
  ∀ s t : State, step s = .next t →
    (∀ w i, Runs s w i → t.run = .running →
      ∃ f, t.outputPort = some f ∧ (f.shouldRender = true ↔ ∃ x y n, i = .drw x y n) ∧
        (f.shouldClear = true ↔ i = .cls)) ∧
      (t.run = .halted → t.outputPort = none)

/-- A step does not read the signals the step before it left: they do not persist (R20, R33, R34). -/
def Obligations.StepIgnoresEarlierSignals : Prop :=
  ∀ (s : State) (g : Signals), step { s with sig := g } = step s

/-- The instruction runs with `pc` at its own address, and after it the engine adds 2 to `pc` unless the instruction set
`pc` itself and signalled so: jumps, calls, returns and skips, taken or not, leave `pc` as they set it, and `FX0A` signals
exactly while no key is down (R104). -/
def Obligations.EngineAdvancesPcByTwo : Prop :=
  ∀ (s t : State) (w : Word) (i : Instr), Runs s w i → step s = .next t → t.run = .running →
    (execState s w).pc = s.pc ∧
      (setsPc i = false → t.sig.advanced = false ∧ t.pc = s.pc + 2) ∧
      (∀ x, i = .ldVxK x → t.sig.advanced = decide (s.nextInput.keys = 0) ∧
        t.pc = if s.nextInput.keys = 0 then s.pc else s.pc + 2) ∧
      (setsPc i = true → (∀ x, i ≠ .ldVxK x) → t.sig.advanced = true ∧ exec i (execState s w) = .next t)

/-- Every step takes one input pair from the host's schedule, or two free values where the schedule is empty, and keeps
the parameters (R46, R10; log 32, log 33). -/
def Obligations.StepConsumesOneInput : Prop :=
  ∀ s t : State, step s = .next t →
    t.inputs = s.inputs.tail ∧ t.draw = s.draw + 1 ∧ t.cfg = s.cfg ∧
      t.sig.keys = s.nextInput.keys ∧ t.sig.rand8 = s.nextInput.rand8

/-- Every step keeps the invariant: canonical memory, `pc` and the live return addresses within R27's bounds, no record
while RUNNING and a well-formed one otherwise. -/
def Obligations.StepKeepsInvariant : Prop :=
  ∀ s t : State, Inv s → step s = .next t → Inv t

/-- Two steps whose inputs differ only in the random byte end alike unless they run `CXNN` (R108). -/
def Obligations.RandomByteReachesOnlyRnd : Prop :=
  ∀ (s t u : State) (k : BitVec 16) (a b : Byte) (rest : List StepInput),
    (∀ w x nn, ¬ Runs s w (.rnd x nn)) →
    step { s with inputs := ⟨k, a⟩ :: rest } = .next t → step { s with inputs := ⟨k, b⟩ :: rest } = .next u →
    t.forgetRand = u.forgetRand

/-- Two steps whose inputs differ only in the keypad end alike unless they run `EX9E`, `EXA1` or `FX0A` (R108). -/
def Obligations.KeypadReachesOnlyKeyInstructions : Prop :=
  ∀ (s t u : State) (j k : BitVec 16) (a : Byte) (rest : List StepInput),
    (∀ w x, ¬ Runs s w (.skp x) ∧ ¬ Runs s w (.sknp x) ∧ ¬ Runs s w (.ldVxK x)) →
    step { s with inputs := ⟨j, a⟩ :: rest } = .next t → step { s with inputs := ⟨k, a⟩ :: rest } = .next u →
    t.forgetKeys = u.forgetKeys

/-- An idle loop stays: after any number of steps `pc` is where it was and only the timers have moved, each by one a step
down to 0 (R109). -/
def Obligations.IdleLoopOnlyCountsTimers : Prop :=
  ∀ (k : Nat) (s : State), IdleAt s →
    ∃ t, Sys2Proof.core.run k s = .next t ∧
      Frame [.delay, .sound, .advanced, .render, .clear, .beep, .stepInputs, .word, .schedule] s t ∧
      t.dt.toNat = s.dt.toNat - k ∧ t.st.toNat = s.st.toNat - k

/-- `FX0A` waits for any number of steps while no key is down: `pc` and everything else stay, only the timers keep
counting (R107, R232). -/
def Obligations.KeyWaitRepeatsUntilKeyDown : Prop :=
  ∀ (k : Nat) (s : State) (w : Word) (x : RegIdx), Runs s w (.ldVxK x) → NoKeyFor k s →
    ∃ t, Sys2Proof.core.run k s = .next t ∧
      Frame [.delay, .sound, .advanced, .render, .clear, .beep, .stepInputs, .word, .schedule] s t ∧
      t.dt.toNat = s.dt.toNat - k ∧ t.st.toNat = s.st.toNat - k

/-! ## Which instruction writes what -/

/-- The only writers of a general register are the instructions R22 lists, each writing the registers R22 gives it. -/
def Obligations.OnlyListedWritersChangeRegisters : Prop :=
  ∀ (i : Instr) (s t : State), exec i s = .next t → RegsExcept (writtenRegs i) s t

/-- Each instruction changes only the parts its rule writes: only `2NNN` the stack entries, only `00E0` and `DXYN` the
display, only `FX33` and `FX55` memory, only `ANNN`, `FX1E`, `FX29` the index register, only `FX15` and `FX18` the timers
(R22, R25, R28, R30, R31, R60), unless it halts the machine. -/
def Obligations.EachInstructionChangesOnlyItsParts : Prop :=
  ∀ (i : Instr) (s t : State), s.run = .running → exec i s = .next t →
    (t.run = .running → Frame (mayChange i) s t) ∧ (t.run = .halted → Frame [.run, .faultRecord] s t)

/-! ## Control flow -/

/-- `1NNN` goes to its 12-bit target and changes nothing else (R122). -/
def Obligations.JumpGoesToItsTarget : Prop :=
  ∀ (nnn : Nat) (s : State), nnn ≤ 0xFFF →
    ∃ t, exec (.jp nnn) s = .next t ∧ t.pc.toNat = nnn ∧ t.sig.advanced = true ∧ Frame [.pc, .advanced] s t

/-- `BNNN` goes to the exact sum of `V[0]` and its target, with no 12-bit wrap (R124; the reading is the spec's own, D15,
log 15). -/
def Obligations.OffsetJumpAddsV0 : Prop :=
  ∀ (nnn : Nat) (s : State), nnn ≤ 0xFFF →
    ∃ t, exec (.jpV0 nnn) s = .next t ∧ t.pc.toNat = (s.reg 0).toNat + nnn ∧ t.sig.advanced = true ∧
      Frame [.pc, .advanced] s t

/-- `2NNN` pushes the address of the next instruction and goes to its target; with 16 addresses held it halts with
StackOverflow (R123; depth counter and pushed value are the spec's own, D1, D2, log 1, log 2). -/
def Obligations.CallPushesReturnAddress : Prop :=
  ∀ (nnn : Nat) (s : State), nnn ≤ 0xFFF →
    ∃ t, exec (.call nnn) s = .next t ∧
      (s.sp.val < 16 →
        t.pc.toNat = nnn ∧ t.sp.val = s.sp.val + 1 ∧ t.sig.advanced = true ∧
          (∀ k : Fin 16, t.stack[k.val] = if k.val = s.sp.val then s.pc + 2 else s.stack[k.val]) ∧
          Frame [.pc, .advanced, .stack, .depth] s t) ∧
      (s.sp.val = 16 → HaltedBy .stackOverflow none s t)

/-- `00EE` goes to the top return address and drops it, leaving the entry's value; on an empty stack it halts with
StackUnderflow (R121; D1, D2, log 1, log 2). -/
def Obligations.ReturnPopsTheTop : Prop :=
  ∀ s : State,
    ∃ t, exec .ret s = .next t ∧
      (∀ k : Fin 16, s.sp.val = k.val + 1 →
        t.pc = s.stack[k.val] ∧ t.sp.val = k.val ∧ t.sig.advanced = true ∧ Frame [.pc, .advanced, .depth] s t) ∧
      (s.sp.val = 0 → HaltedBy .stackUnderflow none s t)

/-- A call followed by the matching return resumes two bytes after the call with the depth as before (R125; D1, D2,
log 1, log 2). Between the two anything may happen, nested calls and returns included, that brings the depth back to what
the call left and keeps the entry the call pushed. -/
def Obligations.ReturnAfterCallResumes : Prop :=
  ∀ (nnn : Nat) (s t u : State) (h : s.sp.val < 16), exec (.call nnn) s = .next t →
    u.sp = t.sp → u.stack[s.sp.val] = t.stack[s.sp.val] →
    ∃ v, exec .ret u = .next v ∧ v.pc = s.pc + 2 ∧ v.sp = s.sp

/-! ## Skips -/

/-- `3XNN` and `4XNN` set `pc` to the word after the next when `V[x]` equals, or differs from, the immediate, and to the
next word otherwise, and change nothing else (R141, R142, with R140's mechanism). -/
def Obligations.ImmediateSkips : Prop :=
  ∀ (x : RegIdx) (nn : Byte) (s : State),
    (∃ t, exec (.seImm x nn) s = .next t ∧ t.pc = (if s.reg x = nn then s.pc + 4 else s.pc + 2) ∧
      t.sig.advanced = true ∧ Frame [.pc, .advanced] s t) ∧
    (∃ t, exec (.sneImm x nn) s = .next t ∧ t.pc = (if s.reg x ≠ nn then s.pc + 4 else s.pc + 2) ∧
      t.sig.advanced = true ∧ Frame [.pc, .advanced] s t)

/-- `5XY0` and `9XY0` compare two registers and skip on equal, or on different (R143, R144). -/
def Obligations.RegisterSkips : Prop :=
  ∀ (x y : RegIdx) (s : State),
    (∃ t, exec (.seReg x y) s = .next t ∧ t.pc = (if s.reg x = s.reg y then s.pc + 4 else s.pc + 2) ∧
      t.sig.advanced = true ∧ Frame [.pc, .advanced] s t) ∧
    (∃ t, exec (.sneReg x y) s = .next t ∧ t.pc = (if s.reg x ≠ s.reg y then s.pc + 4 else s.pc + 2) ∧
      t.sig.advanced = true ∧ Frame [.pc, .advanced] s t)

/-- `EX9E` and `EXA1` skip when key `V[x]` of the step's snapshot is down, or up, for the key numbers 0 to 15 (R145,
R146). -/
def Obligations.KeySkips : Prop :=
  ∀ (x : RegIdx) (s : State), (s.reg x).toNat ≤ 15 →
    (∃ t, exec (.skp x) s = .next t ∧
      t.pc = (if s.sig.keys.getLsbD (s.reg x).toNat = true then s.pc + 4 else s.pc + 2) ∧
      t.sig.advanced = true ∧ Frame [.pc, .advanced] s t) ∧
    (∃ t, exec (.sknp x) s = .next t ∧
      t.pc = (if s.sig.keys.getLsbD (s.reg x).toNat = false then s.pc + 4 else s.pc + 2) ∧
      t.sig.advanced = true ∧ Frame [.pc, .advanced] s t)

/-- `EX9E` and `EXA1` halt with KeyIndexOutOfRange when `V[x]` is no key number (R145, R146, R258; the condition is the
spec's own, D5, log 5). -/
def Obligations.KeySkipsTrapOnBadIndex : Prop :=
  ∀ (x : RegIdx) (s : State), 15 < (s.reg x).toNat →
    (∃ t, exec (.skp x) s = .next t ∧ HaltedBy .keyIndexOutOfRange none s t) ∧
      (∃ t, exec (.sknp x) s = .next t ∧ HaltedBy .keyIndexOutOfRange none s t)

/-! ## Registers and ALU -/

/-- `6XNN` loads the immediate, `7XNN` adds it modulo 256 with no flag, `8XY0` copies a register; nothing else changes,
`VF` included unless it is the destination (R162, R163, R164). -/
def Obligations.LoadsAndImmediateAdd : Prop :=
  ∀ (x y : RegIdx) (nn : Byte) (s : State),
    (∃ t, exec (.ldImm x nn) s = .next t ∧ t.reg x = nn ∧ RegsExcept [x] s t ∧ Frame [.regs] s t) ∧
    (∃ t, exec (.addImm x nn) s = .next t ∧ (t.reg x).toNat = ((s.reg x).toNat + nn.toNat) % 256 ∧
      RegsExcept [x] s t ∧ Frame [.regs] s t) ∧
    (∃ t, exec (.ldReg x y) s = .next t ∧ t.reg x = s.reg y ∧ RegsExcept [x] s t ∧ Frame [.regs] s t)

/-- `8XY1`, `8XY2` and `8XY3` write the bitwise OR, AND and XOR, bit by bit, and no flag (R165, R166, R167; that `VF` is
not reset is the spec's own reading, D9, log 9). -/
def Obligations.LogicOperationsWriteNoFlag : Prop :=
  ∀ (x y : RegIdx) (s : State),
    (∃ t, exec (.orReg x y) s = .next t ∧
      (∀ k, (t.reg x).getLsbD k = ((s.reg x).getLsbD k || (s.reg y).getLsbD k)) ∧
      RegsExcept [x] s t ∧ Frame [.regs] s t) ∧
    (∃ t, exec (.andReg x y) s = .next t ∧
      (∀ k, (t.reg x).getLsbD k = ((s.reg x).getLsbD k && (s.reg y).getLsbD k)) ∧
      RegsExcept [x] s t ∧ Frame [.regs] s t) ∧
    (∃ t, exec (.xorReg x y) s = .next t ∧
      (∀ k, (t.reg x).getLsbD k = ((s.reg x).getLsbD k ^^ (s.reg y).getLsbD k)) ∧
      RegsExcept [x] s t ∧ Frame [.regs] s t)

/-- `8XY4` writes the sum modulo 256 and then the carry to `VF` (R168). For `x = 15` see FlagWinsWhenDestinationIsVF. -/
def Obligations.AddSetsCarry : Prop :=
  ∀ (x y : RegIdx) (s : State), x ≠ 15 →
    ∃ t, exec (.addReg x y) s = .next t ∧
      (t.reg x).toNat = ((s.reg x).toNat + (s.reg y).toNat) % 256 ∧
      t.reg 15 = (if (s.reg x).toNat + (s.reg y).toNat > 255 then 1 else 0) ∧
      RegsExcept [x, 15] s t ∧ Frame [.regs] s t

/-- `8XY5` and `8XY7` write the difference modulo 256 and then `VF`, which is 1 only on strictly greater (R169, R171).
For `x = 15` see FlagWinsWhenDestinationIsVF. -/
def Obligations.SubtractionsSetNoBorrow : Prop :=
  ∀ (x y : RegIdx) (s : State), x ≠ 15 →
    (∃ t, exec (.subReg x y) s = .next t ∧
      (t.reg x).toNat = ((s.reg x).toNat + 256 - (s.reg y).toNat) % 256 ∧
      t.reg 15 = (if (s.reg x).toNat > (s.reg y).toNat then 1 else 0) ∧
      RegsExcept [x, 15] s t ∧ Frame [.regs] s t) ∧
    (∃ t, exec (.subn x y) s = .next t ∧
      (t.reg x).toNat = ((s.reg y).toNat + 256 - (s.reg x).toNat) % 256 ∧
      t.reg 15 = (if (s.reg y).toNat > (s.reg x).toNat then 1 else 0) ∧
      RegsExcept [x, 15] s t ∧ Frame [.regs] s t)

/-- `8XY6` and `8XYE` shift their operand by one and put the bit shifted out in `VF` (R170, R172). The operand is `V[x]`
by the spec's own default and `V[y]` under SHIFT_SRC = VY (D8, log 8). -/
def Obligations.ShiftsMoveOneBitOut : Prop :=
  ∀ (x y : RegIdx) (s : State) (a : Byte), x ≠ 15 →
    a = (if s.cfg.shiftSrc = .vx then s.reg x else s.reg y) →
    (∃ t, exec (.shr x y) s = .next t ∧ (t.reg x).toNat = a.toNat / 2 ∧
      (t.reg 15).toNat = a.toNat % 2 ∧ RegsExcept [x, 15] s t ∧ Frame [.regs] s t) ∧
    (∃ t, exec (.shl x y) s = .next t ∧ (t.reg x).toNat = a.toNat * 2 % 256 ∧
      (t.reg 15).toNat = a.toNat / 128 ∧ RegsExcept [x, 15] s t ∧ Frame [.regs] s t)

/-- When the destination of a flag writer is `VF` itself, `VF` ends holding the flag and the result is lost. This order
is the spec's own choice (R161, D7, log 7; the shift operand D8, log 8). -/
def Obligations.FlagWinsWhenDestinationIsVF : Prop :=
  ∀ (y : RegIdx) (s : State) (a : Byte), a = (if s.cfg.shiftSrc = .vx then s.reg 15 else s.reg y) →
    (∃ t, exec (.addReg 15 y) s = .next t ∧
      t.reg 15 = (if (s.reg 15).toNat + (s.reg y).toNat > 255 then 1 else 0) ∧ RegsExcept [15] s t ∧ Frame [.regs] s t) ∧
    (∃ t, exec (.subReg 15 y) s = .next t ∧
      t.reg 15 = (if (s.reg 15).toNat > (s.reg y).toNat then 1 else 0) ∧ RegsExcept [15] s t ∧ Frame [.regs] s t) ∧
    (∃ t, exec (.subn 15 y) s = .next t ∧
      t.reg 15 = (if (s.reg y).toNat > (s.reg 15).toNat then 1 else 0) ∧ RegsExcept [15] s t ∧ Frame [.regs] s t) ∧
    (∃ t, exec (.shr 15 y) s = .next t ∧ (t.reg 15).toNat = a.toNat % 2 ∧ RegsExcept [15] s t ∧ Frame [.regs] s t) ∧
    (∃ t, exec (.shl 15 y) s = .next t ∧ (t.reg 15).toNat = a.toNat / 128 ∧ RegsExcept [15] s t ∧ Frame [.regs] s t)

/-- `CXNN` writes the step's random byte masked by the immediate: whatever the byte, no bit outside the mask is set and
the result is at most the mask (R173). The byte is a free input (D25, log 25, log 32). -/
def Obligations.RandomByteIsMasked : Prop :=
  ∀ (x : RegIdx) (nn : Byte) (s : State),
    ∃ t, exec (.rnd x nn) s = .next t ∧ t.reg x = nn &&& s.sig.rand8 ∧
      t.reg x &&& ~~~nn = 0 ∧ (t.reg x).toNat ≤ nn.toNat ∧ RegsExcept [x] s t ∧ Frame [.regs] s t

/-! ## Index register and memory -/

/-- `ANNN` sets `I` to its immediate, and `FX29` sets `I` to five times `V[x]`, unmasked (R191, R193). -/
def Obligations.IndexLoads : Prop :=
  ∀ (x : RegIdx) (nnn : Nat) (s : State), nnn ≤ 0xFFF →
    (∃ t, exec (.ldI nnn) s = .next t ∧ t.i.toNat = nnn ∧ Frame [.index] s t) ∧
      (∃ t, exec (.ldF x) s = .next t ∧ t.i.toNat = (s.reg x).toNat * 5 ∧ Frame [.index] s t)

/-- `FX1E` adds `V[x]` to `I` modulo 65536 and writes no flag (R192; the wrap is the spec's own reading of the width, D10,
log 10). -/
def Obligations.IndexAddWrapsAtSixteenBits : Prop :=
  ∀ (x : RegIdx) (s : State),
    ∃ t, exec (.addI x) s = .next t ∧ t.i.toNat = (s.i.toNat + (s.reg x).toNat) % 65536 ∧ Frame [.index] s t

/-- `FX33` stores the hundreds, tens and ones of `V[x]` at `I`, `I + 1` and `I + 2`, and changes no other byte and nothing
else (R194; `I` unchanged and all-or-nothing are D11, D18, log 11, log 18). -/
def Obligations.BcdStoresThreeDigits : Prop :=
  ∀ (x : RegIdx) (s : State), Memory.wf s.cfg s.mem = true → s.i.toNat + 2 ≤ 0xFFF →
    ∃ t, exec (.ldB x) s = .next t ∧
      (t.byteAt s.i.toNat).toNat * 100 + (t.byteAt (s.i.toNat + 1)).toNat * 10 + (t.byteAt (s.i.toNat + 2)).toNat =
        (s.reg x).toNat ∧
      (t.byteAt s.i.toNat).toNat ≤ 2 ∧ (t.byteAt (s.i.toNat + 1)).toNat ≤ 9 ∧ (t.byteAt (s.i.toNat + 2)).toNat ≤ 9 ∧
      (∀ a, indexBase s = a → MemoryExcept a 3 s t) ∧ Frame [.memory] s t

/-- `FX55` stores `V[0]` to `V[x]` at `I` to `I + x`, and changes no other byte and nothing else, `I` included (R195; D11,
D18, log 11, log 18). -/
def Obligations.RegisterBlockStore : Prop :=
  ∀ (x : RegIdx) (s : State), Memory.wf s.cfg s.mem = true → s.i.toNat + x.val ≤ 0xFFF →
    ∃ t, exec (.storeRegs x) s = .next t ∧ (∀ r : RegIdx, r ≤ x → t.byteAt (s.i.toNat + r.val) = s.reg r) ∧
      (∀ a, indexBase s = a → MemoryExcept a (x.val + 1) s t) ∧ Frame [.memory] s t

/-- `FX65` loads `V[0]` to `V[x]` from `I` to `I + x`, and changes nothing else, `I` and memory included (R196; D11, D18,
log 11, log 18). -/
def Obligations.RegisterBlockLoad : Prop :=
  ∀ (x : RegIdx) (s : State), s.i.toNat + x.val ≤ 0xFFF →
    ∃ t, exec (.loadRegs x) s = .next t ∧ (∀ r : RegIdx, r ≤ x → t.reg r = s.byteAt (s.i.toNat + r.val)) ∧
      (∀ r : RegIdx, x < r → t.reg r = s.reg r) ∧ Frame [.regs] s t

/-- Storing a register block and loading it back with the same `x` and `I` leaves `V[0]` to `V[x]` as they were (R197),
whatever the registers hold in between. -/
def Obligations.StoreThenLoadRestoresRegisters : Prop :=
  ∀ (x : RegIdx) (s t u : State), Memory.wf s.cfg s.mem = true → s.i.toNat + x.val ≤ 0xFFF →
    exec (.storeRegs x) s = .next t → u.i = s.i → u.cfg = s.cfg → u.mem = t.mem →
    ∃ v, exec (.loadRegs x) u = .next v ∧ ∀ r : RegIdx, r ≤ x → v.reg r = s.reg r

/-- `FX33`, `FX55`, `FX65` and `DXYN` halt with MemoryOutOfBounds when their block leaves the 4096 bytes, the record naming
the first such address, and write nothing (R190, R254, R256; the name and the check before the first write are the spec's
own, D4, D13, D18, log 4, log 13, log 18). -/
def Obligations.BlocksTrapOutOfRange : Prop :=
  ∀ (x y : RegIdx) (n : Nat) (s : State) (a : Nat), a = (if 0x1000 ≤ s.i.toNat then s.i.toNat else 0x1000) →
    (0xFFF < s.i.toNat + 2 → ∃ t, exec (.ldB x) s = .next t ∧ HaltedBy .memoryOutOfBounds (some a) s t) ∧
    (0xFFF < s.i.toNat + x.val → ∃ t, exec (.storeRegs x) s = .next t ∧ HaltedBy .memoryOutOfBounds (some a) s t) ∧
    (0xFFF < s.i.toNat + x.val → ∃ t, exec (.loadRegs x) s = .next t ∧ HaltedBy .memoryOutOfBounds (some a) s t) ∧
    (0 < n → 0xFFF < s.i.toNat + n - 1 →
      ∃ t, exec (.drw x y n) s = .next t ∧ HaltedBy .memoryOutOfBounds (some a) s t)

/-- A byte an instruction stores is fetched by the very next step: after `FX55` or `FX33`, wherever its block lies, each
byte of the next word the fetch reads is the stored one where the block covers it and the old one where it does not (R76;
the single byte array is the spec's own reading, D26, log 26). -/
def Obligations.StoredWordIsFetchedNext : Prop :=
  ∀ (s : State) (w : Word) (x : RegIdx), Memory.wf s.cfg s.mem = true → s.pc.toNat + 3 ≤ 0xFFF →
    (Runs s w (.storeRegs x) → s.i.toNat + x.val ≤ 0xFFF → NextFetchReads s (regBlock s x)) ∧
      (Runs s w (.ldB x) → s.i.toNat + 2 ≤ 0xFFF → NextFetchReads s (bcdDigits (s.reg x)))

/-- Memories in canonical form that read alike everywhere are equal data (log 36). -/
def Obligations.CanonicalMemoriesReadingAlikeAreEqual : Prop :=
  ∀ (c : Config) (m q : Memory), Memory.wf c m = true → Memory.wf c q = true →
    (∀ a, Memory.read c m a = Memory.read c q a) → m = q

/-! ## Display -/

/-- `00E0` turns every pixel off, sets `should_clear` and changes nothing else, `VF` and `should_render` included
(R210). -/
def Obligations.ClearScreenTurnsEveryPixelOff : Prop :=
  ∀ s : State, ∃ t, exec .cls s = .next t ∧ (∀ y x, t.display.pixel y x = false) ∧ t.sig.clear = true ∧
    Frame [.display, .clear] s t

/-- `DXYN` flips exactly the pixels the sprite's set bits land on, wrapping on both axes, sets `VF` to whether one of them
was on, and sets `should_render`; with no row it flips nothing and completes whatever `I` holds (R211, R213). Row height 0, the bit
order and the check before the first write are the spec's own (D16, D17, D18, log 16, log 17, log 18). -/
def Obligations.DrawFlipsExactlyTheSprite : Prop :=
  ∀ (x y : RegIdx) (n : Nat) (s : State), n ≤ 15 → (n = 0 ∨ s.i.toNat + n - 1 ≤ 0xFFF) →
    ∃ t, exec (.drw x y n) s = .next t ∧
      (∀ row col, row < 32 → col < 64 →
        (t.display.pixel row col ≠ s.display.pixel row col ↔
          spriteCovers s s.i.toNat n (s.reg x).toNat (s.reg y).toNat row col)) ∧
      ((∃ row col, spriteCovers s s.i.toNat n (s.reg x).toNat (s.reg y).toNat row col ∧
          s.display.pixel row col = true) → t.reg 15 = 1) ∧
      ((¬ ∃ row col, spriteCovers s s.i.toNat n (s.reg x).toNat (s.reg y).toNat row col ∧
          s.display.pixel row col = true) → t.reg 15 = 0) ∧
      t.sig.render = true ∧ RegsExcept [15] s t ∧ Frame [.regs, .display, .render] s t

/-- Drawing the same sprite twice at the same position restores the display (R212). By R211 the second draw sets `VF`
exactly when a pixel the sprite covers was off before the first draw; from a clear display that is exactly when the sprite
has a set bit, as R212 says. R212's claim for every display is not R211's (log 39); bit order and row height are D16, D17
(log 16, log 17). -/
def Obligations.DrawTwiceRestoresDisplay : Prop :=
  ∀ (x y p q : RegIdx) (n : Nat) (s t u : State), n ≤ 15 → (n = 0 ∨ s.i.toNat + n - 1 ≤ 0xFFF) →
    exec (.drw x y n) s = .next t → u.display = t.display → u.mem = s.mem → u.cfg = s.cfg → u.i = s.i →
    u.reg p = s.reg x → u.reg q = s.reg y →
    ∃ v, exec (.drw p q n) u = .next v ∧ v.display = s.display ∧ (v.reg 15 = 0 ∨ v.reg 15 = 1) ∧
      (v.reg 15 = 1 ↔ ∃ row col, spriteCovers s s.i.toNat n (s.reg x).toNat (s.reg y).toNat row col ∧
        s.display.pixel row col = false) ∧
      (s.display = Display.blank → (v.reg 15 = 1 ↔ ∃ r, r < n ∧ s.byteAt (s.i.toNat + r) ≠ 0))

/-! ## Timers and keys -/

/-- `FX07` reads the delay timer, which in a step is the value after that step's decrement, and `FX15` sets it, nothing
else changing (R231, R233). -/
def Obligations.DelayTimerReadAndSet : Prop :=
  ∀ (x : RegIdx) (s : State),
    (∃ t, exec (.ldVxDt x) s = .next t ∧ t.reg x = s.dt ∧ RegsExcept [x] s t ∧ Frame [.regs] s t) ∧
    (∃ t, exec (.ldDtVx x) s = .next t ∧ t.dt = s.reg x ∧ Frame [.delay] s t) ∧
    (∀ w, Runs s w (.ldVxDt x) → ∃ t, step s = .next t ∧ (t.reg x).toNat = s.dt.toNat - 1)

/-- `FX18` sets the sound timer and leaves this step's `should_beep` alone; the `j`-th step start after it beeps exactly
when the value was `j + 1` with `j` at least 1, so a value of 0 or 1 never beeps (R234, R291; that the flag is sampled
before the write is the spec's own, D19, log 19). -/
def Obligations.SoundTimerSetThenOneBeep : Prop :=
  ∀ (x : RegIdx) (s : State),
    ∃ t, exec (.ldStVx x) s = .next t ∧ t.st = s.reg x ∧ Frame [.sound] s t ∧
      ∀ j, ((State.beginStep^[j + 1] t).sig.beep = true ↔ (s.reg x).toNat = j + 2)

/-- The timers are counted down by the starts of steps alone, by one each, and stop at 0: after `j` of them a value `v`
reads `v - j` (R230). -/
def Obligations.TimersCountDownToZero : Prop :=
  ∀ (j : Nat) (s : State),
    (State.beginStep^[j] s).dt.toNat = s.dt.toNat - j ∧ (State.beginStep^[j] s).st.toNat = s.st.toNat - j

/-- `FX0A` with a key down in the snapshot writes the number of a key that is down, the lowest one under the spec's own
default choice (R232; D6, log 6); with no key down it leaves `pc` and everything else alone and keeps `pc` from
advancing. -/
def Obligations.KeyWaitTakesAKeyDown : Prop :=
  ∀ (x : RegIdx) (s : State),
    (s.sig.keys = 0 → ∃ t, exec (.ldVxK x) s = .next t ∧ t.sig.advanced = true ∧ Frame [.advanced] s t) ∧
    (s.sig.keys ≠ 0 → ∃ t, exec (.ldVxK x) s = .next t ∧ s.sig.keys.getLsbD (t.reg x).toNat = true ∧
      (s.cfg.keyChoice = .lowest → ∀ k, s.sig.keys.getLsbD k = true → (t.reg x).toNat ≤ k) ∧
      RegsExcept [x] s t ∧ Frame [.regs] s t)
end

