-- ==== Sys2Proof/Laws/State.lean ====
section
/-!
SUPPORT. What each update of the state leaves in each field: one lemma per field per update, all by rfl, so that no
proof unfolds a record update.
-/

namespace Sys2Proof.Machine

variable (s : State)

/-! ## setReg -/

@[simp] theorem State.setReg_v (x : RegIdx) (b : Byte) : (s.setReg x b).v = s.v.set x.val b := rfl
@[simp] theorem State.setReg_i (x : RegIdx) (b : Byte) : (s.setReg x b).i = s.i := rfl
@[simp] theorem State.setReg_pc (x : RegIdx) (b : Byte) : (s.setReg x b).pc = s.pc := rfl
@[simp] theorem State.setReg_stack (x : RegIdx) (b : Byte) : (s.setReg x b).stack = s.stack := rfl
@[simp] theorem State.setReg_sp (x : RegIdx) (b : Byte) : (s.setReg x b).sp = s.sp := rfl
@[simp] theorem State.setReg_dt (x : RegIdx) (b : Byte) : (s.setReg x b).dt = s.dt := rfl
@[simp] theorem State.setReg_st (x : RegIdx) (b : Byte) : (s.setReg x b).st = s.st := rfl
@[simp] theorem State.setReg_display (x : RegIdx) (b : Byte) : (s.setReg x b).display = s.display := rfl
@[simp] theorem State.setReg_mem (x : RegIdx) (b : Byte) : (s.setReg x b).mem = s.mem := rfl
@[simp] theorem State.setReg_run (x : RegIdx) (b : Byte) : (s.setReg x b).run = s.run := rfl
@[simp] theorem State.setReg_fault (x : RegIdx) (b : Byte) : (s.setReg x b).fault = s.fault := rfl
@[simp] theorem State.setReg_inputs (x : RegIdx) (b : Byte) : (s.setReg x b).inputs = s.inputs := rfl
@[simp] theorem State.setReg_draw (x : RegIdx) (b : Byte) : (s.setReg x b).draw = s.draw := rfl
@[simp] theorem State.setReg_cfg (x : RegIdx) (b : Byte) : (s.setReg x b).cfg = s.cfg := rfl
@[simp] theorem State.setReg_sig (x : RegIdx) (b : Byte) : (s.setReg x b).sig = s.sig := rfl
@[simp] theorem State.setReg_byteAt (x : RegIdx) (b : Byte) (k : Nat) : (s.setReg x b).byteAt k = s.byteAt k := rfl

/-! ## setVF -/

@[simp] theorem State.setVF_v (b : Byte) : (s.setVF b).v = s.v.set 15 b := rfl
@[simp] theorem State.setVF_i (b : Byte) : (s.setVF b).i = s.i := rfl
@[simp] theorem State.setVF_pc (b : Byte) : (s.setVF b).pc = s.pc := rfl
@[simp] theorem State.setVF_stack (b : Byte) : (s.setVF b).stack = s.stack := rfl
@[simp] theorem State.setVF_sp (b : Byte) : (s.setVF b).sp = s.sp := rfl
@[simp] theorem State.setVF_dt (b : Byte) : (s.setVF b).dt = s.dt := rfl
@[simp] theorem State.setVF_st (b : Byte) : (s.setVF b).st = s.st := rfl
@[simp] theorem State.setVF_display (b : Byte) : (s.setVF b).display = s.display := rfl
@[simp] theorem State.setVF_mem (b : Byte) : (s.setVF b).mem = s.mem := rfl
@[simp] theorem State.setVF_run (b : Byte) : (s.setVF b).run = s.run := rfl
@[simp] theorem State.setVF_fault (b : Byte) : (s.setVF b).fault = s.fault := rfl
@[simp] theorem State.setVF_inputs (b : Byte) : (s.setVF b).inputs = s.inputs := rfl
@[simp] theorem State.setVF_draw (b : Byte) : (s.setVF b).draw = s.draw := rfl
@[simp] theorem State.setVF_cfg (b : Byte) : (s.setVF b).cfg = s.cfg := rfl
@[simp] theorem State.setVF_sig (b : Byte) : (s.setVF b).sig = s.sig := rfl
@[simp] theorem State.setVF_byteAt (b : Byte) (k : Nat) : (s.setVF b).byteAt k = s.byteAt k := rfl

/-! ## setRegs -/

@[simp] theorem State.setRegs_v (v : Vector Byte 16) : (s.setRegs v).v = v := rfl
@[simp] theorem State.setRegs_i (v : Vector Byte 16) : (s.setRegs v).i = s.i := rfl
@[simp] theorem State.setRegs_pc (v : Vector Byte 16) : (s.setRegs v).pc = s.pc := rfl
@[simp] theorem State.setRegs_stack (v : Vector Byte 16) : (s.setRegs v).stack = s.stack := rfl
@[simp] theorem State.setRegs_sp (v : Vector Byte 16) : (s.setRegs v).sp = s.sp := rfl
@[simp] theorem State.setRegs_dt (v : Vector Byte 16) : (s.setRegs v).dt = s.dt := rfl
@[simp] theorem State.setRegs_st (v : Vector Byte 16) : (s.setRegs v).st = s.st := rfl
@[simp] theorem State.setRegs_display (v : Vector Byte 16) : (s.setRegs v).display = s.display := rfl
@[simp] theorem State.setRegs_mem (v : Vector Byte 16) : (s.setRegs v).mem = s.mem := rfl
@[simp] theorem State.setRegs_run (v : Vector Byte 16) : (s.setRegs v).run = s.run := rfl
@[simp] theorem State.setRegs_fault (v : Vector Byte 16) : (s.setRegs v).fault = s.fault := rfl
@[simp] theorem State.setRegs_inputs (v : Vector Byte 16) : (s.setRegs v).inputs = s.inputs := rfl
@[simp] theorem State.setRegs_draw (v : Vector Byte 16) : (s.setRegs v).draw = s.draw := rfl
@[simp] theorem State.setRegs_cfg (v : Vector Byte 16) : (s.setRegs v).cfg = s.cfg := rfl
@[simp] theorem State.setRegs_sig (v : Vector Byte 16) : (s.setRegs v).sig = s.sig := rfl
@[simp] theorem State.setRegs_byteAt (v : Vector Byte 16) (k : Nat) : (s.setRegs v).byteAt k = s.byteAt k := rfl

/-! ## setI -/

@[simp] theorem State.setI_v (a : Word) : (s.setI a).v = s.v := rfl
@[simp] theorem State.setI_i (a : Word) : (s.setI a).i = a := rfl
@[simp] theorem State.setI_pc (a : Word) : (s.setI a).pc = s.pc := rfl
@[simp] theorem State.setI_stack (a : Word) : (s.setI a).stack = s.stack := rfl
@[simp] theorem State.setI_sp (a : Word) : (s.setI a).sp = s.sp := rfl
@[simp] theorem State.setI_dt (a : Word) : (s.setI a).dt = s.dt := rfl
@[simp] theorem State.setI_st (a : Word) : (s.setI a).st = s.st := rfl
@[simp] theorem State.setI_display (a : Word) : (s.setI a).display = s.display := rfl
@[simp] theorem State.setI_mem (a : Word) : (s.setI a).mem = s.mem := rfl
@[simp] theorem State.setI_run (a : Word) : (s.setI a).run = s.run := rfl
@[simp] theorem State.setI_fault (a : Word) : (s.setI a).fault = s.fault := rfl
@[simp] theorem State.setI_inputs (a : Word) : (s.setI a).inputs = s.inputs := rfl
@[simp] theorem State.setI_draw (a : Word) : (s.setI a).draw = s.draw := rfl
@[simp] theorem State.setI_cfg (a : Word) : (s.setI a).cfg = s.cfg := rfl
@[simp] theorem State.setI_sig (a : Word) : (s.setI a).sig = s.sig := rfl
@[simp] theorem State.setI_reg (a : Word) (r : RegIdx) : (s.setI a).reg r = s.reg r := rfl
@[simp] theorem State.setI_byteAt (a : Word) (k : Nat) : (s.setI a).byteAt k = s.byteAt k := rfl

/-! ## setDT -/

@[simp] theorem State.setDT_v (b : Byte) : (s.setDT b).v = s.v := rfl
@[simp] theorem State.setDT_i (b : Byte) : (s.setDT b).i = s.i := rfl
@[simp] theorem State.setDT_pc (b : Byte) : (s.setDT b).pc = s.pc := rfl
@[simp] theorem State.setDT_stack (b : Byte) : (s.setDT b).stack = s.stack := rfl
@[simp] theorem State.setDT_sp (b : Byte) : (s.setDT b).sp = s.sp := rfl
@[simp] theorem State.setDT_dt (b : Byte) : (s.setDT b).dt = b := rfl
@[simp] theorem State.setDT_st (b : Byte) : (s.setDT b).st = s.st := rfl
@[simp] theorem State.setDT_display (b : Byte) : (s.setDT b).display = s.display := rfl
@[simp] theorem State.setDT_mem (b : Byte) : (s.setDT b).mem = s.mem := rfl
@[simp] theorem State.setDT_run (b : Byte) : (s.setDT b).run = s.run := rfl
@[simp] theorem State.setDT_fault (b : Byte) : (s.setDT b).fault = s.fault := rfl
@[simp] theorem State.setDT_inputs (b : Byte) : (s.setDT b).inputs = s.inputs := rfl
@[simp] theorem State.setDT_draw (b : Byte) : (s.setDT b).draw = s.draw := rfl
@[simp] theorem State.setDT_cfg (b : Byte) : (s.setDT b).cfg = s.cfg := rfl
@[simp] theorem State.setDT_sig (b : Byte) : (s.setDT b).sig = s.sig := rfl
@[simp] theorem State.setDT_reg (b : Byte) (r : RegIdx) : (s.setDT b).reg r = s.reg r := rfl
@[simp] theorem State.setDT_byteAt (b : Byte) (k : Nat) : (s.setDT b).byteAt k = s.byteAt k := rfl

/-! ## setST -/

@[simp] theorem State.setST_v (b : Byte) : (s.setST b).v = s.v := rfl
@[simp] theorem State.setST_i (b : Byte) : (s.setST b).i = s.i := rfl
@[simp] theorem State.setST_pc (b : Byte) : (s.setST b).pc = s.pc := rfl
@[simp] theorem State.setST_stack (b : Byte) : (s.setST b).stack = s.stack := rfl
@[simp] theorem State.setST_sp (b : Byte) : (s.setST b).sp = s.sp := rfl
@[simp] theorem State.setST_dt (b : Byte) : (s.setST b).dt = s.dt := rfl
@[simp] theorem State.setST_st (b : Byte) : (s.setST b).st = b := rfl
@[simp] theorem State.setST_display (b : Byte) : (s.setST b).display = s.display := rfl
@[simp] theorem State.setST_mem (b : Byte) : (s.setST b).mem = s.mem := rfl
@[simp] theorem State.setST_run (b : Byte) : (s.setST b).run = s.run := rfl
@[simp] theorem State.setST_fault (b : Byte) : (s.setST b).fault = s.fault := rfl
@[simp] theorem State.setST_inputs (b : Byte) : (s.setST b).inputs = s.inputs := rfl
@[simp] theorem State.setST_draw (b : Byte) : (s.setST b).draw = s.draw := rfl
@[simp] theorem State.setST_cfg (b : Byte) : (s.setST b).cfg = s.cfg := rfl
@[simp] theorem State.setST_sig (b : Byte) : (s.setST b).sig = s.sig := rfl
@[simp] theorem State.setST_reg (b : Byte) (r : RegIdx) : (s.setST b).reg r = s.reg r := rfl
@[simp] theorem State.setST_byteAt (b : Byte) (k : Nat) : (s.setST b).byteAt k = s.byteAt k := rfl

/-! ## jump -/

@[simp] theorem State.jump_v (a : Word) : (s.jump a).v = s.v := rfl
@[simp] theorem State.jump_i (a : Word) : (s.jump a).i = s.i := rfl
@[simp] theorem State.jump_pc (a : Word) : (s.jump a).pc = a := rfl
@[simp] theorem State.jump_stack (a : Word) : (s.jump a).stack = s.stack := rfl
@[simp] theorem State.jump_sp (a : Word) : (s.jump a).sp = s.sp := rfl
@[simp] theorem State.jump_dt (a : Word) : (s.jump a).dt = s.dt := rfl
@[simp] theorem State.jump_st (a : Word) : (s.jump a).st = s.st := rfl
@[simp] theorem State.jump_display (a : Word) : (s.jump a).display = s.display := rfl
@[simp] theorem State.jump_mem (a : Word) : (s.jump a).mem = s.mem := rfl
@[simp] theorem State.jump_run (a : Word) : (s.jump a).run = s.run := rfl
@[simp] theorem State.jump_fault (a : Word) : (s.jump a).fault = s.fault := rfl
@[simp] theorem State.jump_inputs (a : Word) : (s.jump a).inputs = s.inputs := rfl
@[simp] theorem State.jump_draw (a : Word) : (s.jump a).draw = s.draw := rfl
@[simp] theorem State.jump_cfg (a : Word) : (s.jump a).cfg = s.cfg := rfl
@[simp] theorem State.jump_sig_keys (a : Word) : (s.jump a).sig.keys = s.sig.keys := rfl
@[simp] theorem State.jump_sig_rand8 (a : Word) : (s.jump a).sig.rand8 = s.sig.rand8 := rfl
@[simp] theorem State.jump_sig_word (a : Word) : (s.jump a).sig.word = s.sig.word := rfl
@[simp] theorem State.jump_sig_advanced (a : Word) : (s.jump a).sig.advanced = true := rfl
@[simp] theorem State.jump_sig_render (a : Word) : (s.jump a).sig.render = s.sig.render := rfl
@[simp] theorem State.jump_sig_clear (a : Word) : (s.jump a).sig.clear = s.sig.clear := rfl
@[simp] theorem State.jump_sig_beep (a : Word) : (s.jump a).sig.beep = s.sig.beep := rfl
@[simp] theorem State.jump_reg (a : Word) (r : RegIdx) : (s.jump a).reg r = s.reg r := rfl
@[simp] theorem State.jump_byteAt (a : Word) (k : Nat) : (s.jump a).byteAt k = s.byteAt k := rfl

/-! ## hold -/

@[simp] theorem State.hold_v : (s.hold).v = s.v := rfl
@[simp] theorem State.hold_i : (s.hold).i = s.i := rfl
@[simp] theorem State.hold_pc : (s.hold).pc = s.pc := rfl
@[simp] theorem State.hold_stack : (s.hold).stack = s.stack := rfl
@[simp] theorem State.hold_sp : (s.hold).sp = s.sp := rfl
@[simp] theorem State.hold_dt : (s.hold).dt = s.dt := rfl
@[simp] theorem State.hold_st : (s.hold).st = s.st := rfl
@[simp] theorem State.hold_display : (s.hold).display = s.display := rfl
@[simp] theorem State.hold_mem : (s.hold).mem = s.mem := rfl
@[simp] theorem State.hold_run : (s.hold).run = s.run := rfl
@[simp] theorem State.hold_fault : (s.hold).fault = s.fault := rfl
@[simp] theorem State.hold_inputs : (s.hold).inputs = s.inputs := rfl
@[simp] theorem State.hold_draw : (s.hold).draw = s.draw := rfl
@[simp] theorem State.hold_cfg : (s.hold).cfg = s.cfg := rfl
@[simp] theorem State.hold_sig_keys : (s.hold).sig.keys = s.sig.keys := rfl
@[simp] theorem State.hold_sig_rand8 : (s.hold).sig.rand8 = s.sig.rand8 := rfl
@[simp] theorem State.hold_sig_word : (s.hold).sig.word = s.sig.word := rfl
@[simp] theorem State.hold_sig_advanced : (s.hold).sig.advanced = true := rfl
@[simp] theorem State.hold_sig_render : (s.hold).sig.render = s.sig.render := rfl
@[simp] theorem State.hold_sig_clear : (s.hold).sig.clear = s.sig.clear := rfl
@[simp] theorem State.hold_sig_beep : (s.hold).sig.beep = s.sig.beep := rfl
@[simp] theorem State.hold_reg (r : RegIdx) : (s.hold).reg r = s.reg r := rfl
@[simp] theorem State.hold_byteAt (k : Nat) : (s.hold).byteAt k = s.byteAt k := rfl

/-! ## skipIf -/

@[simp] theorem State.skipIf_v (c : Bool) : (s.skipIf c).v = s.v := rfl
@[simp] theorem State.skipIf_i (c : Bool) : (s.skipIf c).i = s.i := rfl
@[simp] theorem State.skipIf_pc (c : Bool) : (s.skipIf c).pc = if c then s.pc + 4 else s.pc + 2 := rfl
@[simp] theorem State.skipIf_stack (c : Bool) : (s.skipIf c).stack = s.stack := rfl
@[simp] theorem State.skipIf_sp (c : Bool) : (s.skipIf c).sp = s.sp := rfl
@[simp] theorem State.skipIf_dt (c : Bool) : (s.skipIf c).dt = s.dt := rfl
@[simp] theorem State.skipIf_st (c : Bool) : (s.skipIf c).st = s.st := rfl
@[simp] theorem State.skipIf_display (c : Bool) : (s.skipIf c).display = s.display := rfl
@[simp] theorem State.skipIf_mem (c : Bool) : (s.skipIf c).mem = s.mem := rfl
@[simp] theorem State.skipIf_run (c : Bool) : (s.skipIf c).run = s.run := rfl
@[simp] theorem State.skipIf_fault (c : Bool) : (s.skipIf c).fault = s.fault := rfl
@[simp] theorem State.skipIf_inputs (c : Bool) : (s.skipIf c).inputs = s.inputs := rfl
@[simp] theorem State.skipIf_draw (c : Bool) : (s.skipIf c).draw = s.draw := rfl
@[simp] theorem State.skipIf_cfg (c : Bool) : (s.skipIf c).cfg = s.cfg := rfl
@[simp] theorem State.skipIf_sig_keys (c : Bool) : (s.skipIf c).sig.keys = s.sig.keys := rfl
@[simp] theorem State.skipIf_sig_rand8 (c : Bool) : (s.skipIf c).sig.rand8 = s.sig.rand8 := rfl
@[simp] theorem State.skipIf_sig_word (c : Bool) : (s.skipIf c).sig.word = s.sig.word := rfl
@[simp] theorem State.skipIf_sig_advanced (c : Bool) : (s.skipIf c).sig.advanced = true := rfl
@[simp] theorem State.skipIf_sig_render (c : Bool) : (s.skipIf c).sig.render = s.sig.render := rfl
@[simp] theorem State.skipIf_sig_clear (c : Bool) : (s.skipIf c).sig.clear = s.sig.clear := rfl
@[simp] theorem State.skipIf_sig_beep (c : Bool) : (s.skipIf c).sig.beep = s.sig.beep := rfl
@[simp] theorem State.skipIf_reg (c : Bool) (r : RegIdx) : (s.skipIf c).reg r = s.reg r := rfl
@[simp] theorem State.skipIf_byteAt (c : Bool) (k : Nat) : (s.skipIf c).byteAt k = s.byteAt k := rfl

/-! ## storeBytes -/

@[simp] theorem State.storeBytes_v (a : Nat) (bs : List Byte) : (s.storeBytes a bs).v = s.v := rfl
@[simp] theorem State.storeBytes_i (a : Nat) (bs : List Byte) : (s.storeBytes a bs).i = s.i := rfl
@[simp] theorem State.storeBytes_pc (a : Nat) (bs : List Byte) : (s.storeBytes a bs).pc = s.pc := rfl
@[simp] theorem State.storeBytes_stack (a : Nat) (bs : List Byte) : (s.storeBytes a bs).stack = s.stack := rfl
@[simp] theorem State.storeBytes_sp (a : Nat) (bs : List Byte) : (s.storeBytes a bs).sp = s.sp := rfl
@[simp] theorem State.storeBytes_dt (a : Nat) (bs : List Byte) : (s.storeBytes a bs).dt = s.dt := rfl
@[simp] theorem State.storeBytes_st (a : Nat) (bs : List Byte) : (s.storeBytes a bs).st = s.st := rfl
@[simp] theorem State.storeBytes_display (a : Nat) (bs : List Byte) : (s.storeBytes a bs).display = s.display := rfl
@[simp] theorem State.storeBytes_mem (a : Nat) (bs : List Byte) : (s.storeBytes a bs).mem = Memory.writeBytes s.cfg s.mem a bs := rfl
@[simp] theorem State.storeBytes_run (a : Nat) (bs : List Byte) : (s.storeBytes a bs).run = s.run := rfl
@[simp] theorem State.storeBytes_fault (a : Nat) (bs : List Byte) : (s.storeBytes a bs).fault = s.fault := rfl
@[simp] theorem State.storeBytes_inputs (a : Nat) (bs : List Byte) : (s.storeBytes a bs).inputs = s.inputs := rfl
@[simp] theorem State.storeBytes_draw (a : Nat) (bs : List Byte) : (s.storeBytes a bs).draw = s.draw := rfl
@[simp] theorem State.storeBytes_cfg (a : Nat) (bs : List Byte) : (s.storeBytes a bs).cfg = s.cfg := rfl
@[simp] theorem State.storeBytes_sig (a : Nat) (bs : List Byte) : (s.storeBytes a bs).sig = s.sig := rfl
@[simp] theorem State.storeBytes_reg (a : Nat) (bs : List Byte) (r : RegIdx) : (s.storeBytes a bs).reg r = s.reg r := rfl

/-! ## setDisplay -/

@[simp] theorem State.setDisplay_v (d : Display) : (s.setDisplay d).v = s.v := rfl
@[simp] theorem State.setDisplay_i (d : Display) : (s.setDisplay d).i = s.i := rfl
@[simp] theorem State.setDisplay_pc (d : Display) : (s.setDisplay d).pc = s.pc := rfl
@[simp] theorem State.setDisplay_stack (d : Display) : (s.setDisplay d).stack = s.stack := rfl
@[simp] theorem State.setDisplay_sp (d : Display) : (s.setDisplay d).sp = s.sp := rfl
@[simp] theorem State.setDisplay_dt (d : Display) : (s.setDisplay d).dt = s.dt := rfl
@[simp] theorem State.setDisplay_st (d : Display) : (s.setDisplay d).st = s.st := rfl
@[simp] theorem State.setDisplay_display (d : Display) : (s.setDisplay d).display = d := rfl
@[simp] theorem State.setDisplay_mem (d : Display) : (s.setDisplay d).mem = s.mem := rfl
@[simp] theorem State.setDisplay_run (d : Display) : (s.setDisplay d).run = s.run := rfl
@[simp] theorem State.setDisplay_fault (d : Display) : (s.setDisplay d).fault = s.fault := rfl
@[simp] theorem State.setDisplay_inputs (d : Display) : (s.setDisplay d).inputs = s.inputs := rfl
@[simp] theorem State.setDisplay_draw (d : Display) : (s.setDisplay d).draw = s.draw := rfl
@[simp] theorem State.setDisplay_cfg (d : Display) : (s.setDisplay d).cfg = s.cfg := rfl
@[simp] theorem State.setDisplay_sig (d : Display) : (s.setDisplay d).sig = s.sig := rfl
@[simp] theorem State.setDisplay_reg (d : Display) (r : RegIdx) : (s.setDisplay d).reg r = s.reg r := rfl
@[simp] theorem State.setDisplay_byteAt (d : Display) (k : Nat) : (s.setDisplay d).byteAt k = s.byteAt k := rfl

/-! ## setRender -/

@[simp] theorem State.setRender_v : (s.setRender).v = s.v := rfl
@[simp] theorem State.setRender_i : (s.setRender).i = s.i := rfl
@[simp] theorem State.setRender_pc : (s.setRender).pc = s.pc := rfl
@[simp] theorem State.setRender_stack : (s.setRender).stack = s.stack := rfl
@[simp] theorem State.setRender_sp : (s.setRender).sp = s.sp := rfl
@[simp] theorem State.setRender_dt : (s.setRender).dt = s.dt := rfl
@[simp] theorem State.setRender_st : (s.setRender).st = s.st := rfl
@[simp] theorem State.setRender_display : (s.setRender).display = s.display := rfl
@[simp] theorem State.setRender_mem : (s.setRender).mem = s.mem := rfl
@[simp] theorem State.setRender_run : (s.setRender).run = s.run := rfl
@[simp] theorem State.setRender_fault : (s.setRender).fault = s.fault := rfl
@[simp] theorem State.setRender_inputs : (s.setRender).inputs = s.inputs := rfl
@[simp] theorem State.setRender_draw : (s.setRender).draw = s.draw := rfl
@[simp] theorem State.setRender_cfg : (s.setRender).cfg = s.cfg := rfl
@[simp] theorem State.setRender_sig_keys : (s.setRender).sig.keys = s.sig.keys := rfl
@[simp] theorem State.setRender_sig_rand8 : (s.setRender).sig.rand8 = s.sig.rand8 := rfl
@[simp] theorem State.setRender_sig_word : (s.setRender).sig.word = s.sig.word := rfl
@[simp] theorem State.setRender_sig_advanced : (s.setRender).sig.advanced = s.sig.advanced := rfl
@[simp] theorem State.setRender_sig_render : (s.setRender).sig.render = true := rfl
@[simp] theorem State.setRender_sig_clear : (s.setRender).sig.clear = s.sig.clear := rfl
@[simp] theorem State.setRender_sig_beep : (s.setRender).sig.beep = s.sig.beep := rfl
@[simp] theorem State.setRender_reg (r : RegIdx) : (s.setRender).reg r = s.reg r := rfl
@[simp] theorem State.setRender_byteAt (k : Nat) : (s.setRender).byteAt k = s.byteAt k := rfl

/-! ## setClear -/

@[simp] theorem State.setClear_v : (s.setClear).v = s.v := rfl
@[simp] theorem State.setClear_i : (s.setClear).i = s.i := rfl
@[simp] theorem State.setClear_pc : (s.setClear).pc = s.pc := rfl
@[simp] theorem State.setClear_stack : (s.setClear).stack = s.stack := rfl
@[simp] theorem State.setClear_sp : (s.setClear).sp = s.sp := rfl
@[simp] theorem State.setClear_dt : (s.setClear).dt = s.dt := rfl
@[simp] theorem State.setClear_st : (s.setClear).st = s.st := rfl
@[simp] theorem State.setClear_display : (s.setClear).display = s.display := rfl
@[simp] theorem State.setClear_mem : (s.setClear).mem = s.mem := rfl
@[simp] theorem State.setClear_run : (s.setClear).run = s.run := rfl
@[simp] theorem State.setClear_fault : (s.setClear).fault = s.fault := rfl
@[simp] theorem State.setClear_inputs : (s.setClear).inputs = s.inputs := rfl
@[simp] theorem State.setClear_draw : (s.setClear).draw = s.draw := rfl
@[simp] theorem State.setClear_cfg : (s.setClear).cfg = s.cfg := rfl
@[simp] theorem State.setClear_sig_keys : (s.setClear).sig.keys = s.sig.keys := rfl
@[simp] theorem State.setClear_sig_rand8 : (s.setClear).sig.rand8 = s.sig.rand8 := rfl
@[simp] theorem State.setClear_sig_word : (s.setClear).sig.word = s.sig.word := rfl
@[simp] theorem State.setClear_sig_advanced : (s.setClear).sig.advanced = s.sig.advanced := rfl
@[simp] theorem State.setClear_sig_render : (s.setClear).sig.render = s.sig.render := rfl
@[simp] theorem State.setClear_sig_clear : (s.setClear).sig.clear = true := rfl
@[simp] theorem State.setClear_sig_beep : (s.setClear).sig.beep = s.sig.beep := rfl
@[simp] theorem State.setClear_reg (r : RegIdx) : (s.setClear).reg r = s.reg r := rfl
@[simp] theorem State.setClear_byteAt (k : Nat) : (s.setClear).byteAt k = s.byteAt k := rfl

/-! ## raise -/

@[simp] theorem State.raise_v (c : Condition) (a : Option Nat) : (s.raise c a).v = s.v := rfl
@[simp] theorem State.raise_i (c : Condition) (a : Option Nat) : (s.raise c a).i = s.i := rfl
@[simp] theorem State.raise_pc (c : Condition) (a : Option Nat) : (s.raise c a).pc = s.pc := rfl
@[simp] theorem State.raise_stack (c : Condition) (a : Option Nat) : (s.raise c a).stack = s.stack := rfl
@[simp] theorem State.raise_sp (c : Condition) (a : Option Nat) : (s.raise c a).sp = s.sp := rfl
@[simp] theorem State.raise_dt (c : Condition) (a : Option Nat) : (s.raise c a).dt = s.dt := rfl
@[simp] theorem State.raise_st (c : Condition) (a : Option Nat) : (s.raise c a).st = s.st := rfl
@[simp] theorem State.raise_display (c : Condition) (a : Option Nat) : (s.raise c a).display = s.display := rfl
@[simp] theorem State.raise_mem (c : Condition) (a : Option Nat) : (s.raise c a).mem = s.mem := rfl
@[simp] theorem State.raise_run (c : Condition) (a : Option Nat) : (s.raise c a).run = .halted := rfl
@[simp] theorem State.raise_fault (c : Condition) (a : Option Nat) : (s.raise c a).fault = some ⟨c, s.pc, s.sig.word, a⟩ := rfl
@[simp] theorem State.raise_inputs (c : Condition) (a : Option Nat) : (s.raise c a).inputs = s.inputs := rfl
@[simp] theorem State.raise_draw (c : Condition) (a : Option Nat) : (s.raise c a).draw = s.draw := rfl
@[simp] theorem State.raise_cfg (c : Condition) (a : Option Nat) : (s.raise c a).cfg = s.cfg := rfl
@[simp] theorem State.raise_sig (c : Condition) (a : Option Nat) : (s.raise c a).sig = s.sig := rfl
@[simp] theorem State.raise_reg (c : Condition) (a : Option Nat) (r : RegIdx) : (s.raise c a).reg r = s.reg r := rfl
@[simp] theorem State.raise_byteAt (c : Condition) (a : Option Nat) (k : Nat) : (s.raise c a).byteAt k = s.byteAt k := rfl

/-! ## setWord -/

@[simp] theorem State.setWord_v (w : Word) : (s.setWord w).v = s.v := rfl
@[simp] theorem State.setWord_i (w : Word) : (s.setWord w).i = s.i := rfl
@[simp] theorem State.setWord_pc (w : Word) : (s.setWord w).pc = s.pc := rfl
@[simp] theorem State.setWord_stack (w : Word) : (s.setWord w).stack = s.stack := rfl
@[simp] theorem State.setWord_sp (w : Word) : (s.setWord w).sp = s.sp := rfl
@[simp] theorem State.setWord_dt (w : Word) : (s.setWord w).dt = s.dt := rfl
@[simp] theorem State.setWord_st (w : Word) : (s.setWord w).st = s.st := rfl
@[simp] theorem State.setWord_display (w : Word) : (s.setWord w).display = s.display := rfl
@[simp] theorem State.setWord_mem (w : Word) : (s.setWord w).mem = s.mem := rfl
@[simp] theorem State.setWord_run (w : Word) : (s.setWord w).run = s.run := rfl
@[simp] theorem State.setWord_fault (w : Word) : (s.setWord w).fault = s.fault := rfl
@[simp] theorem State.setWord_inputs (w : Word) : (s.setWord w).inputs = s.inputs := rfl
@[simp] theorem State.setWord_draw (w : Word) : (s.setWord w).draw = s.draw := rfl
@[simp] theorem State.setWord_cfg (w : Word) : (s.setWord w).cfg = s.cfg := rfl
@[simp] theorem State.setWord_sig_keys (w : Word) : (s.setWord w).sig.keys = s.sig.keys := rfl
@[simp] theorem State.setWord_sig_rand8 (w : Word) : (s.setWord w).sig.rand8 = s.sig.rand8 := rfl
@[simp] theorem State.setWord_sig_word (w : Word) : (s.setWord w).sig.word = some w := rfl
@[simp] theorem State.setWord_sig_advanced (w : Word) : (s.setWord w).sig.advanced = s.sig.advanced := rfl
@[simp] theorem State.setWord_sig_render (w : Word) : (s.setWord w).sig.render = s.sig.render := rfl
@[simp] theorem State.setWord_sig_clear (w : Word) : (s.setWord w).sig.clear = s.sig.clear := rfl
@[simp] theorem State.setWord_sig_beep (w : Word) : (s.setWord w).sig.beep = s.sig.beep := rfl
@[simp] theorem State.setWord_reg (w : Word) (r : RegIdx) : (s.setWord w).reg r = s.reg r := rfl
@[simp] theorem State.setWord_byteAt (w : Word) (k : Nat) : (s.setWord w).byteAt k = s.byteAt k := rfl

/-! ## beginStep -/

@[simp] theorem State.beginStep_v : (s.beginStep).v = s.v := rfl
@[simp] theorem State.beginStep_i : (s.beginStep).i = s.i := rfl
@[simp] theorem State.beginStep_pc : (s.beginStep).pc = s.pc := rfl
@[simp] theorem State.beginStep_stack : (s.beginStep).stack = s.stack := rfl
@[simp] theorem State.beginStep_sp : (s.beginStep).sp = s.sp := rfl
@[simp] theorem State.beginStep_dt : (s.beginStep).dt = tick s.dt := rfl
@[simp] theorem State.beginStep_st : (s.beginStep).st = tick s.st := rfl
@[simp] theorem State.beginStep_display : (s.beginStep).display = s.display := rfl
@[simp] theorem State.beginStep_mem : (s.beginStep).mem = s.mem := rfl
@[simp] theorem State.beginStep_run : (s.beginStep).run = s.run := rfl
@[simp] theorem State.beginStep_fault : (s.beginStep).fault = s.fault := rfl
@[simp] theorem State.beginStep_inputs : (s.beginStep).inputs = s.inputs.tail := rfl
@[simp] theorem State.beginStep_draw : (s.beginStep).draw = s.draw + 1 := rfl
@[simp] theorem State.beginStep_cfg : (s.beginStep).cfg = s.cfg := rfl
@[simp] theorem State.beginStep_sig_keys : (s.beginStep).sig.keys = s.nextInput.keys := rfl
@[simp] theorem State.beginStep_sig_rand8 : (s.beginStep).sig.rand8 = s.nextInput.rand8 := rfl
@[simp] theorem State.beginStep_sig_word : (s.beginStep).sig.word = none := rfl
@[simp] theorem State.beginStep_sig_advanced : (s.beginStep).sig.advanced = false := rfl
@[simp] theorem State.beginStep_sig_render : (s.beginStep).sig.render = false := rfl
@[simp] theorem State.beginStep_sig_clear : (s.beginStep).sig.clear = false := rfl
@[simp] theorem State.beginStep_sig_beep : (s.beginStep).sig.beep = decide (tick s.st = 1) := rfl
@[simp] theorem State.beginStep_reg (r : RegIdx) : (s.beginStep).reg r = s.reg r := rfl
@[simp] theorem State.beginStep_byteAt (k : Nat) : (s.beginStep).byteAt k = s.byteAt k := rfl

/-! ## Registers read back -/

/-- Reading a register after writing one. -/
@[simp] theorem State.setReg_reg (x r : RegIdx) (b : Byte) :
    (s.setReg x b).reg r = if r = x then b else s.reg r := by
  simp [State.setReg, State.reg, Vector.getElem_set, eq_comm, Fin.ext_iff]

/-- Reading a register after writing `VF`. -/
@[simp] theorem State.setVF_reg (r : RegIdx) (b : Byte) :
    (s.setVF b).reg r = if r = 15 then b else s.reg r := State.setReg_reg s 15 r b

end Sys2Proof.Machine
end

