-- ==== Sys2Proof/Laws/Display.lean ====
section
/-!
SUPPORT. The display: a pixel after a flip, and that displays with equal pixels are equal (R31, R211).
-/

namespace Sys2Proof.Machine

/-- Flipping one pixel inverts that pixel, coordinates modulo 32 and 64, and no other. -/
theorem Display.pixel_flip (d : Display) (y x y' x' : Nat) :
    (d.flip y x).pixel y' x' = (d.pixel y' x' ^^ decide (y' % 32 = y % 32 ∧ x' % 64 = x % 64)) := by
  have hx : x % 64 < 64 := Nat.mod_lt _ (by decide)
  have hx' : x' % 64 < 64 := Nat.mod_lt _ (by decide)
  by_cases hy : y' % 32 = y % 32
  · simp only [Display.flip, Display.pixel, hy, Vector.getElem_set_self, BitVec.getLsbD_xor, true_and]
    congr 1
    by_cases h : x' % 64 = x % 64
    · simp [h, hx]
    · by_cases hlt : x' % 64 < x % 64
      · simp [hlt, h]
      · simp [hlt, h, show x' % 64 - x % 64 ≠ 0 by omega]
  · simp [Display.flip, Display.pixel, hy, Ne.symm hy]

/-- Every pixel of the blank display is off. -/
@[simp] theorem Display.pixel_blank (y x : Nat) : Display.blank.pixel y x = false := by
  simp [Display.blank, Display.pixel]

/-- Displays with equal pixels are equal. -/
theorem Display.ext_pixel (d e : Display) (h : ∀ y x, d.pixel y x = e.pixel y x) : d = e := by
  ext y hy x hx
  have := h y x
  simpa [Display.pixel, Nat.mod_eq_of_lt hy, Nat.mod_eq_of_lt hx, hx] using this

end Sys2Proof.Machine
end

