-- ==== Sys2Proof/Laws/Encoding.lean ====
section
/-!
SUPPORT. The fields of a built word, and that a word is built from its fields (R81): the two halves of every encoding
argument.
-/

namespace Sys2Proof

@[simp] theorem regBits_toFin (x : RegIdx) : (regBits x).toFin = x := rfl

/-! ## Fields of a built word -/

@[simp] theorem fieldOp_wordAddr (op : BitVec 4) (a : Nat) : fieldOp (wordAddr op a) = op := by
  rw [fieldOp, wordAddr, BitVec.extractLsb'_append_eq_of_le (by omega)]
  simp

@[simp] theorem fieldNNN_wordAddr (op : BitVec 4) (a : Nat) : fieldNNN (wordAddr op a) = a % 4096 := by
  rw [fieldNNN, wordAddr, BitVec.extractLsb'_append_eq_of_add_le (by omega)]
  simp

@[simp] theorem fieldOp_wordImm (op : BitVec 4) (x : RegIdx) (nn : Byte) : fieldOp (wordImm op x nn) = op := by
  rw [fieldOp, wordImm, BitVec.extractLsb'_append_eq_of_le (by omega), BitVec.extractLsb'_append_eq_of_le (by omega)]
  simp

@[simp] theorem fieldX_wordImm (op : BitVec 4) (x : RegIdx) (nn : Byte) : fieldX (wordImm op x nn) = x := by
  rw [fieldX, wordImm, BitVec.extractLsb'_append_eq_of_le (by omega),
    BitVec.extractLsb'_append_eq_of_add_le (by omega)]
  simp

@[simp] theorem fieldNN_wordImm (op : BitVec 4) (x : RegIdx) (nn : Byte) : fieldNN (wordImm op x nn) = nn := by
  rw [fieldNN, wordImm, BitVec.extractLsb'_append_eq_of_add_le (by omega)]
  simp

@[simp] theorem fieldOp_wordRegs (op : BitVec 4) (x y : RegIdx) (n : BitVec 4) :
    fieldOp (wordRegs op x y n) = op := by
  rw [fieldOp, wordRegs, BitVec.extractLsb'_append_eq_of_le (by omega),
    BitVec.extractLsb'_append_eq_of_le (by omega), BitVec.extractLsb'_append_eq_of_le (by omega)]
  simp

@[simp] theorem fieldX_wordRegs (op : BitVec 4) (x y : RegIdx) (n : BitVec 4) :
    fieldX (wordRegs op x y n) = x := by
  rw [fieldX, wordRegs, BitVec.extractLsb'_append_eq_of_le (by omega),
    BitVec.extractLsb'_append_eq_of_le (by omega), BitVec.extractLsb'_append_eq_of_add_le (by omega)]
  simp

@[simp] theorem fieldY_wordRegs (op : BitVec 4) (x y : RegIdx) (n : BitVec 4) :
    fieldY (wordRegs op x y n) = y := by
  rw [fieldY, wordRegs, BitVec.extractLsb'_append_eq_of_le (by omega),
    BitVec.extractLsb'_append_eq_of_add_le (by omega)]
  simp

@[simp] theorem fieldN_wordRegs (op : BitVec 4) (x y : RegIdx) (n : BitVec 4) :
    fieldN (wordRegs op x y n) = n := by
  rw [fieldN, wordRegs, BitVec.extractLsb'_append_eq_of_add_le (by omega)]
  simp

/-! ## A word from its fields -/

/-- A word is its family and its address field. -/
theorem wordAddr_fields (w : Word) : wordAddr (fieldOp w) (fieldNNN w) = w := by
  simp only [wordAddr, fieldOp, fieldNNN, BitVec.ofNat_toNat, BitVec.setWidth_eq]
  rw [BitVec.extractLsb'_append_extractLsb'_eq_extractLsb' (by omega)]
  simp

/-- A word is its family, its `x` field and its low byte. -/
theorem wordImm_fields (w : Word) : wordImm (fieldOp w) (fieldX w) (fieldNN w) = w := by
  show w.extractLsb' 12 4 ++ w.extractLsb' 8 4 ++ w.extractLsb' 0 8 = w
  rw [BitVec.extractLsb'_append_extractLsb'_eq_extractLsb' (by omega),
    BitVec.extractLsb'_append_extractLsb'_eq_extractLsb' (by omega)]
  simp

/-- A word is its four nibbles. -/
theorem wordRegs_fields (w : Word) : wordRegs (fieldOp w) (fieldX w) (fieldY w) (fieldN w) = w := by
  show w.extractLsb' 12 4 ++ w.extractLsb' 8 4 ++ w.extractLsb' 4 4 ++ w.extractLsb' 0 4 = w
  rw [BitVec.extractLsb'_append_extractLsb'_eq_extractLsb' (by omega),
    BitVec.extractLsb'_append_extractLsb'_eq_extractLsb' (by omega),
    BitVec.extractLsb'_append_extractLsb'_eq_extractLsb' (by omega)]
  simp

/-- A word is its two bytes (R68). -/
theorem wordOfBytes_bytes (w : Word) : wordOfBytes (highByte w) (lowByte w) = w := by
  rw [wordOfBytes, highByte, lowByte, BitVec.extractLsb'_append_extractLsb'_eq_extractLsb' (by omega)]
  simp

/-- The value of a word, high byte first (R68). -/
theorem wordOfBytes_toNat (hi lo : Byte) : (wordOfBytes hi lo).toNat = hi.toNat * 256 + lo.toNat := by
  rw [wordOfBytes, BitVec.toNat_append, ← Nat.shiftLeft_add_eq_or_of_lt (by simpa using lo.isLt)]
  simp [Nat.shiftLeft_eq]

end Sys2Proof
end

