-- ==== Sys2Proof/Laws/Flags.lean ====
section
/-!
SUPPORT. The arithmetic results and flags as numbers (R168 to R172), and the result-then-flag write (R161).
-/

namespace Sys2Proof.Machine

@[simp] theorem flagByte_true : flagByte true = 1 := rfl
@[simp] theorem flagByte_false : flagByte false = 0 := rfl

theorem addResult_toNat (a b : Byte) : (addResult a b).toNat = (a.toNat + b.toNat) % 256 := by
  simp [addResult]

theorem addCarry_iff (a b : Byte) : addCarry a b = true ↔ 255 < a.toNat + b.toNat := by simp [addCarry]

theorem subResult_toNat (a b : Byte) : (subResult a b).toNat = (a.toNat + 256 - b.toNat) % 256 := by
  have := a.isLt
  have := b.isLt
  simp only [subResult, BitVec.toNat_ofInt]
  omega

theorem subNoBorrow_iff (a b : Byte) : subNoBorrow a b = true ↔ b.toNat < a.toNat := by simp [subNoBorrow]

theorem shrResult_toNat (a : Byte) : (shrResult a).toNat = a.toNat / 2 := by
  simp [shrResult, Nat.shiftRight_eq_div_pow]

theorem shlResult_toNat (a : Byte) : (shlResult a).toNat = a.toNat * 2 % 256 := by
  simp [shlResult, Nat.shiftLeft_eq]

theorem shrOut_toNat (a : Byte) : (flagByte (shrOut a)).toNat = a.toNat % 2 := by
  revert a; decide

theorem shlOut_toNat (a : Byte) : (flagByte (shlOut a)).toNat = a.toNat / 128 := by
  revert a; decide

/-- The registers after a result and its flag: `VF` holds the flag, the destination the result unless it is `VF`. -/
@[simp] theorem State.setResult_reg (s : State) (x r : RegIdx) (b : Byte) (f : Bool) :
    (s.setResult x b f).reg r = if r = 15 then flagByte f else if r = x then b else s.reg r := by
  simp [State.setResult]

/-- A result with a flag changes the register file alone. -/
theorem State.setResult_eq (s : State) (x : RegIdx) (b : Byte) (f : Bool) :
    s.setResult x b f = s.setRegs ((s.v.set x.val b).set 15 (flagByte f)) := rfl

/-- The three digits are the decimal digits of the byte (R194). -/
theorem bcdDigits_toNat (v : Byte) :
    ∃ h t o : Byte, bcdDigits v = [h, t, o] ∧ h.toNat * 100 + t.toNat * 10 + o.toNat = v.toNat ∧
      h.toNat ≤ 2 ∧ t.toNat ≤ 9 ∧ o.toNat ≤ 9 := by
  have := v.isLt
  refine ⟨_, _, _, rfl, ?_⟩
  simp only [BitVec.toNat_ofNat]
  omega

/-- Registers after a block load: those below `count` hold their byte, the others their old value (R196). -/
theorem readBlock_getElem (s : State) (a count k : Nat) (hk : k < 16) :
    (readBlock s a count)[k] = if k < count then s.byteAt (a + k) else s.v[k] := by
  induction count with
  | zero => simp [readBlock]
  | succ n ih =>
    simp only [readBlock, Vector.getElem_setIfInBounds, ih]
    split
    · next h => subst h; simp
    · next h => exact if_congr (by omega) rfl rfl

/-- The bytes of a register block: as many as registers, in order (R195). -/
theorem regBlock_length (s : State) (x : RegIdx) : (regBlock s x).length = x.val + 1 := by
  simp [regBlock]

theorem regBlock_getElem (s : State) (x r : RegIdx) (h : r.val < (regBlock s x).length) :
    (regBlock s x)[r.val] = s.reg r := by
  simp [regBlock, State.reg]

end Sys2Proof.Machine
end

