-- ==== Sys2Proof/Laws/Memory.lean ====
section
/-!
SUPPORT. Memory: reads after writes, and that every memory operation keeps the canonical form (R66, R67, R72; log 36).
-/

namespace Sys2Proof.Machine

variable (c : Config)

/-- What the canonical form says of a listed entry and what follows it. -/
theorem Memory.wf_cons (k : Nat) (v : Byte) (rest : Memory) :
    Memory.wf c ((k, v) :: rest) = true ↔
      k ≤ 0xFFF ∧ v ≠ initialByte c k ∧ (∀ e ∈ rest, k < e.1) ∧ Memory.wf c rest = true := by
  simp [Memory.wf, and_assoc]

/-- An address below every listed one reads as an unlisted address. -/
theorem Memory.read_unlisted (m : Memory) (a : Nat) (h : ∀ e ∈ m, a < e.1) :
    Memory.read c m a = initialByte c a := by
  induction m with
  | nil => rfl
  | cons e rest ih =>
    obtain ⟨k, v⟩ := e
    have hk : a < k := h (k, v) (by simp)
    simp only [Memory.read, if_neg (Nat.ne_of_lt hk)]
    exact ih fun e he => h e (by simp [he])

/-- Writing one address leaves every other as it was. -/
theorem Memory.read_write_ne (m : Memory) (a k : Nat) (b : Byte) (h : k ≠ a) :
    Memory.read c (Memory.write c m a b) k = Memory.read c m k := by
  induction m with
  | nil => simp only [Memory.write]; split <;> simp [Memory.read, h]
  | cons e rest ih =>
    obtain ⟨j, v⟩ := e
    simp only [Memory.write]
    split
    · split <;> simp [Memory.read, h]
    · split
      · next hj => subst hj; split <;> simp [Memory.read, h]
      · simp [Memory.read, ih]

/-- Reading the address just written gives the byte written. -/
theorem Memory.read_write_self (m : Memory) (a : Nat) (b : Byte) (hm : Memory.wf c m = true) :
    Memory.read c (Memory.write c m a b) a = b := by
  induction m with
  | nil => simp only [Memory.write]; split <;> simp [Memory.read, *]
  | cons e rest ih =>
    obtain ⟨j, v⟩ := e
    obtain ⟨-, -, hrest, hwf⟩ := (Memory.wf_cons c j v rest).mp hm
    simp only [Memory.write]
    split
    · next hlt =>
      split
      · next hb =>
        rw [hb]
        refine Memory.read_unlisted c _ a fun e he => ?_
        rcases List.mem_cons.mp he with rfl | he
        · exact hlt
        · exact lt_trans hlt (hrest e he)
      · simp [Memory.read]
    · split
      · next hj =>
        subst hj
        split
        · next hb => rw [hb]; exact Memory.read_unlisted c _ a hrest
        · simp [Memory.read]
      · next hj => simp [Memory.read, hj, ih hwf]

/-- A write lists no entry but the old ones and one at its own address. -/
theorem Memory.mem_write (m : Memory) (a : Nat) (b : Byte) (e : Host.Cell) (he : e ∈ Memory.write c m a b) :
    e ∈ m ∨ e.1 = a := by
  induction m with
  | nil =>
    simp only [Memory.write] at he
    split at he
    · exact .inl he
    · exact .inr (by rw [List.mem_singleton.mp he])
  | cons d rest ih =>
    obtain ⟨j, v⟩ := d
    simp only [Memory.write] at he
    split at he
    · split at he
      · exact .inl he
      · rcases List.mem_cons.mp he with rfl | he
        · exact .inr rfl
        · exact .inl he
    · split at he
      · split at he
        · exact .inl (List.mem_cons_of_mem _ he)
        · rcases List.mem_cons.mp he with rfl | he
          · exact .inr rfl
          · exact .inl (List.mem_cons_of_mem _ he)
      · rcases List.mem_cons.mp he with rfl | he
        · exact .inl List.mem_cons_self
        · exact (ih he).imp_left (List.mem_cons_of_mem _)

/-- A write to an existing address keeps the canonical form. -/
theorem Memory.write_wf (m : Memory) (a : Nat) (b : Byte) (ha : a ≤ 0xFFF) (hm : Memory.wf c m = true) :
    Memory.wf c (Memory.write c m a b) = true := by
  induction m with
  | nil => simp only [Memory.write]; split <;> simp_all [Memory.wf]
  | cons e rest ih =>
    obtain ⟨j, v⟩ := e
    obtain ⟨hj, hv, hrest, hwf⟩ := (Memory.wf_cons c j v rest).mp hm
    simp only [Memory.write]
    split
    · next hlt =>
      split
      · exact hm
      · next hb =>
        refine (Memory.wf_cons c a b _).mpr ⟨ha, hb, fun e he => ?_, hm⟩
        rcases List.mem_cons.mp he with rfl | he
        · exact hlt
        · exact lt_trans hlt (hrest e he)
    · split
      · next hja =>
        subst hja
        split
        · exact hwf
        · next hb => exact (Memory.wf_cons c a b rest).mpr ⟨ha, hb, hrest, hwf⟩
      · next hlt hja =>
        exact (Memory.wf_cons c j v _).mpr
          ⟨hj, hv, fun e he => (Memory.mem_write c rest a b e he).elim (hrest e) (by omega), ih hwf⟩

/-- Writing a run of existing addresses keeps the canonical form. -/
theorem Memory.writeBytes_wf (bs : List Byte) (m : Memory) (a : Nat) (ha : a + bs.length ≤ 0x1000)
    (hm : Memory.wf c m = true) : Memory.wf c (Memory.writeBytes c m a bs) = true := by
  induction bs generalizing m a with
  | nil => exact hm
  | cons b bs ih =>
    simp only [List.length_cons] at ha
    exact ih _ _ (by omega) (Memory.write_wf c m a b (by omega) hm)

/-- Writing a run of bytes leaves every address outside it as it was. -/
theorem Memory.read_writeBytes_outside (bs : List Byte) (m : Memory) (a k : Nat)
    (h : k < a ∨ a + bs.length ≤ k) : Memory.read c (Memory.writeBytes c m a bs) k = Memory.read c m k := by
  induction bs generalizing m a with
  | nil => rfl
  | cons b bs ih =>
    simp only [List.length_cons] at h
    rw [Memory.writeBytes, ih _ _ (by omega), Memory.read_write_ne c m a k b (by omega)]

/-- Reading a run of bytes just written gives them back. -/
theorem Memory.read_writeBytes_inside (bs : List Byte) (m : Memory) (a j : Nat) (ha : a + bs.length ≤ 0x1000)
    (hm : Memory.wf c m = true) (hj : j < bs.length) :
    Memory.read c (Memory.writeBytes c m a bs) (a + j) = bs[j] := by
  induction bs generalizing m a j with
  | nil => simp at hj
  | cons b bs ih =>
    simp only [List.length_cons] at ha hj
    have hw := Memory.write_wf c m a b (by omega) hm
    cases j with
    | zero =>
      rw [Memory.writeBytes, Memory.read_writeBytes_outside c bs _ _ _ (by omega)]
      simpa using Memory.read_write_self c m a b hm
    | succ j =>
      have := ih (Memory.write c m a b) (a + 1) j (by omega) hw (by omega)
      simpa [Memory.writeBytes, Nat.add_assoc, Nat.add_comm 1 j] using this

/-- The block check passes exactly when every address of the block exists (R69, R190). -/
theorem firstOutOfRange_eq_none (a len : Nat) :
    firstOutOfRange a len = none ↔ len = 0 ∨ a + len ≤ 0x1000 := by
  unfold firstOutOfRange
  repeat' split
  all_goals simp
  all_goals omega

/-- The block check fails with the first address that does not exist (R69, R190). -/
theorem firstOutOfRange_eq_some (a len b : Nat) :
    firstOutOfRange a len = some b ↔
      len ≠ 0 ∧ 0x1000 < a + len ∧ b = if 0x1000 ≤ a then a else 0x1000 := by
  unfold firstOutOfRange
  repeat' split
  all_goals simp
  all_goals omega

variable (s : State)

/-- A fetch succeeds exactly up to 0xFFE and reads the two bytes at `pc`, the high byte first (R68, R70). -/
theorem State.fetch_ok (h : s.pc.toNat ≤ 0xFFE) :
    s.fetch = .ok (wordOfBytes (s.byteAt s.pc.toNat) (s.byteAt (s.pc.toNat + 1))) := by
  simp [State.fetch, State.memRead, show s.pc.toNat ≤ 4095 by omega, show s.pc.toNat + 1 ≤ 4095 by omega]

/-- A fetch above 0xFFE fails with the first address that does not exist (R70). -/
theorem State.fetch_error (h : 0xFFE < s.pc.toNat) :
    s.fetch = .error (if s.pc.toNat = 0xFFF then 0x1000 else s.pc.toNat) := by
  by_cases hp : s.pc.toNat = 0xFFF
  · simp [State.fetch, State.memRead, hp]
  · simp [State.fetch, State.memRead, hp, show ¬ s.pc.toNat ≤ 4095 by omega]

/-- A fetch answers a word only where both bytes exist. -/
theorem State.fetch_ok_iff (w : Word) :
    s.fetch = .ok w ↔
      s.pc.toNat ≤ 0xFFE ∧ w = wordOfBytes (s.byteAt s.pc.toNat) (s.byteAt (s.pc.toNat + 1)) := by
  by_cases h : s.pc.toNat ≤ 0xFFE
  · simp [State.fetch_ok s h, h, eq_comm]
  · simp [State.fetch_error s (by omega), h]

/-- A fetch reads nothing but `pc` and memory. -/
theorem State.fetch_congr (t : State) (hp : t.pc = s.pc) (hm : t.mem = s.mem) (hc : t.cfg = s.cfg) :
    t.fetch = s.fetch := by
  simp [State.fetch, State.memRead, State.byteAt, hp, hm, hc]

@[simp] theorem State.beginStep_fetch : s.beginStep.fetch = s.fetch := rfl

end Sys2Proof.Machine
end

