-- ==== Sys2Proof/Laws/PerInstr.lean ====
section
/-!
SUPPORT. Facts stated for every instruction, one lemma per constructor. OnRow: the word of an instruction has the fixed
bits of the instruction's row of the opcode table (R85), whatever its operands.
-/

namespace Sys2Proof.Laws.OnRow

/-- The encoding of `i` matches `i`'s row of the table. -/
def Statement (i : Instr) : Prop := (tableRow i).matches (encode i) = true

/-- The family nibble of a word `op nnn`. -/
theorem wordAddr_mask (op : BitVec 4) (nnn : Nat) : wordAddr op nnn &&& 0xF000 = op ++ 0#12 := by
  have h : (0xF000 : Word) = BitVec.allOnes 4 ++ 0#12 := by decide
  rw [wordAddr, h, BitVec.and_append]
  simp only [BitVec.and_allOnes, BitVec.and_zero]

/-- The family nibble of a word `op x nn`. -/
theorem wordImm_mask (op : BitVec 4) (x : RegIdx) (nn : Byte) : wordImm op x nn &&& 0xF000 = op ++ 0#4 ++ 0#8 := by
  have h : (0xF000 : Word) = BitVec.allOnes 4 ++ 0#4 ++ 0#8 := by decide
  rw [wordImm, h, BitVec.and_append, BitVec.and_append]
  simp only [BitVec.and_allOnes, BitVec.and_zero]

/-- The family nibble and low byte of a word `op x nn`. -/
theorem wordImm_mask_low (op : BitVec 4) (x : RegIdx) (nn : Byte) : wordImm op x nn &&& 0xF0FF = op ++ 0#4 ++ nn := by
  have h : (0xF0FF : Word) = BitVec.allOnes 4 ++ 0#4 ++ BitVec.allOnes 8 := by decide
  rw [wordImm, h, BitVec.and_append, BitVec.and_append]
  simp only [BitVec.and_allOnes, BitVec.and_zero]

/-- The family nibble of a word `op x y n`. -/
theorem wordRegs_mask (op : BitVec 4) (x y : RegIdx) (n : BitVec 4) :
    wordRegs op x y n &&& 0xF000 = op ++ 0#4 ++ 0#4 ++ 0#4 := by
  have h : (0xF000 : Word) = BitVec.allOnes 4 ++ 0#4 ++ 0#4 ++ 0#4 := by decide
  rw [wordRegs, h, BitVec.and_append, BitVec.and_append, BitVec.and_append]
  simp only [BitVec.and_allOnes, BitVec.and_zero]

/-- The family nibble and low nibble of a word `op x y n`. -/
theorem wordRegs_mask_low (op : BitVec 4) (x y : RegIdx) (n : BitVec 4) :
    wordRegs op x y n &&& 0xF00F = op ++ 0#4 ++ 0#4 ++ n := by
  have h : (0xF00F : Word) = BitVec.allOnes 4 ++ 0#4 ++ 0#4 ++ BitVec.allOnes 4 := by decide
  rw [wordRegs, h, BitVec.and_append, BitVec.and_append, BitVec.and_append]
  simp only [BitVec.and_allOnes, BitVec.and_zero]

theorem cls : Statement .cls := rfl
theorem ret : Statement .ret := rfl
theorem jp (nnn : Nat) : Statement (.jp nnn) := decide_eq_true (wordAddr_mask 0x1 nnn)
theorem call (nnn : Nat) : Statement (.call nnn) := decide_eq_true (wordAddr_mask 0x2 nnn)
theorem seImm (x : RegIdx) (nn : Byte) : Statement (.seImm x nn) := decide_eq_true (wordImm_mask 0x3 x nn)
theorem sneImm (x : RegIdx) (nn : Byte) : Statement (.sneImm x nn) := decide_eq_true (wordImm_mask 0x4 x nn)
theorem seReg (x y : RegIdx) : Statement (.seReg x y) := decide_eq_true (wordRegs_mask_low 0x5 x y 0x0)
theorem ldImm (x : RegIdx) (nn : Byte) : Statement (.ldImm x nn) := decide_eq_true (wordImm_mask 0x6 x nn)
theorem addImm (x : RegIdx) (nn : Byte) : Statement (.addImm x nn) := decide_eq_true (wordImm_mask 0x7 x nn)
theorem ldReg (x y : RegIdx) : Statement (.ldReg x y) := decide_eq_true (wordRegs_mask_low 0x8 x y 0x0)
theorem orReg (x y : RegIdx) : Statement (.orReg x y) := decide_eq_true (wordRegs_mask_low 0x8 x y 0x1)
theorem andReg (x y : RegIdx) : Statement (.andReg x y) := decide_eq_true (wordRegs_mask_low 0x8 x y 0x2)
theorem xorReg (x y : RegIdx) : Statement (.xorReg x y) := decide_eq_true (wordRegs_mask_low 0x8 x y 0x3)
theorem addReg (x y : RegIdx) : Statement (.addReg x y) := decide_eq_true (wordRegs_mask_low 0x8 x y 0x4)
theorem subReg (x y : RegIdx) : Statement (.subReg x y) := decide_eq_true (wordRegs_mask_low 0x8 x y 0x5)
theorem shr (x y : RegIdx) : Statement (.shr x y) := decide_eq_true (wordRegs_mask_low 0x8 x y 0x6)
theorem subn (x y : RegIdx) : Statement (.subn x y) := decide_eq_true (wordRegs_mask_low 0x8 x y 0x7)
theorem shl (x y : RegIdx) : Statement (.shl x y) := decide_eq_true (wordRegs_mask_low 0x8 x y 0xE)
theorem sneReg (x y : RegIdx) : Statement (.sneReg x y) := decide_eq_true (wordRegs_mask_low 0x9 x y 0x0)
theorem ldI (nnn : Nat) : Statement (.ldI nnn) := decide_eq_true (wordAddr_mask 0xA nnn)
theorem jpV0 (nnn : Nat) : Statement (.jpV0 nnn) := decide_eq_true (wordAddr_mask 0xB nnn)
theorem rnd (x : RegIdx) (nn : Byte) : Statement (.rnd x nn) := decide_eq_true (wordImm_mask 0xC x nn)
theorem drw (x y : RegIdx) (n : Nat) : Statement (.drw x y n) :=
  decide_eq_true (wordRegs_mask 0xD x y (BitVec.ofNat 4 n))
theorem skp (x : RegIdx) : Statement (.skp x) := decide_eq_true (wordImm_mask_low 0xE x 0x9E)
theorem sknp (x : RegIdx) : Statement (.sknp x) := decide_eq_true (wordImm_mask_low 0xE x 0xA1)
theorem ldVxDt (x : RegIdx) : Statement (.ldVxDt x) := decide_eq_true (wordImm_mask_low 0xF x 0x07)
theorem ldVxK (x : RegIdx) : Statement (.ldVxK x) := decide_eq_true (wordImm_mask_low 0xF x 0x0A)
theorem ldDtVx (x : RegIdx) : Statement (.ldDtVx x) := decide_eq_true (wordImm_mask_low 0xF x 0x15)
theorem ldStVx (x : RegIdx) : Statement (.ldStVx x) := decide_eq_true (wordImm_mask_low 0xF x 0x18)
theorem addI (x : RegIdx) : Statement (.addI x) := decide_eq_true (wordImm_mask_low 0xF x 0x1E)
theorem ldF (x : RegIdx) : Statement (.ldF x) := decide_eq_true (wordImm_mask_low 0xF x 0x29)
theorem ldB (x : RegIdx) : Statement (.ldB x) := decide_eq_true (wordImm_mask_low 0xF x 0x33)
theorem storeRegs (x : RegIdx) : Statement (.storeRegs x) := decide_eq_true (wordImm_mask_low 0xF x 0x55)
theorem loadRegs (x : RegIdx) : Statement (.loadRegs x) := decide_eq_true (wordImm_mask_low 0xF x 0x65)

end Sys2Proof.Laws.OnRow
end

