-- ==== Sys2Proof/Laws/Stack.lean ====
section
/-!
SUPPORT. The call stack: everything a push and a pop can do (R28, R29).
-/

namespace Sys2Proof.Machine

variable (s : State)

/-- A push on 16 held addresses does nothing. -/
theorem State.push?_full (a : Word) (h : s.sp.val = 16) : s.push? a = none := by
  simp [State.push?, h]

/-- A push below 16 writes the entry at the depth, raises the depth, and touches nothing else. -/
theorem State.push?_some (a : Word) (h : s.sp.val < 16) :
    s.push? a = some { s with stack := s.stack.set s.sp.val a, sp := ⟨s.sp.val + 1, by omega⟩ } := by
  simp [State.push?, h]

/-- A pop of an empty stack does nothing. -/
theorem State.pop?_empty (h : s.sp.val = 0) : s.pop? = none := by
  simp [State.pop?, h]

/-- A pop gives the entry below the depth, lowers the depth, and touches nothing else. -/
theorem State.pop?_some (k : Fin 16) (h : s.sp.val = k.val + 1) :
    s.pop? = some (s.stack[k.val], { s with sp := ⟨k.val, by omega⟩ }) := by
  simp [State.pop?, h]

/-- A pop at the depth a push left, with the pushed entry kept, gives the pushed address and the depth before the push,
whatever the entries above hold (R125). -/
theorem State.pop?_push? (a : Word) (t u : State) (hlt : s.sp.val < 16) (h : s.push? a = some t) (hp : u.sp = t.sp)
    (hs : u.stack[s.sp.val] = t.stack[s.sp.val]) : u.pop? = some (a, { u with sp := s.sp }) := by
  rw [State.push?_some s a hlt] at h
  cases h
  rw [State.pop?_some u ⟨s.sp.val, hlt⟩ (by rw [hp])]
  simp [hs]

end Sys2Proof.Machine
end

