-- ==== Sys2Proof/Laws/Step.lean ====
section
/-!
SUPPORT. What a step can do, said once: the cases of `step`, and what the start and the end of a step change.
-/

namespace Sys2Proof.Machine

variable (s : State)

/-- Everything a step that answers a next state can have done (R100): halted at the fetch, halted at decode, or executed
an instruction and ended. -/
theorem step_cases (t : State) (h : step s = .next t) :
    s.run = .running ∧
      ((∃ a, s.fetch = .error a ∧ t = s.beginStep.raise .memoryOutOfBounds (some a)) ∨
       (∃ w e, s.fetch = .ok w ∧ decodeWord w = .error e ∧ t = (s.beginStep.setWord w).raise .unknownOpcode none) ∨
       (∃ w i u, s.fetch = .ok w ∧ decodeWord w = .ok i ∧ exec i (s.beginStep.setWord w) = .next u ∧
         t = u.endStep)) := by
  unfold step at h
  split at h
  · cases h
  · next hr =>
    refine ⟨hr, ?_⟩
    rw [State.beginStep_fetch] at h
    split at h
    · next a ha => exact .inl ⟨a, ha, by cases h; rfl⟩
    · next w hw =>
      split at h
      · next e he => exact .inr (.inl ⟨w, e, hw, he, by cases h; rfl⟩)
      · next i hi =>
        split at h
        · next u hu => exact .inr (.inr ⟨w, i, u, hw, hi, hu, by cases h; rfl⟩)
        · cases h
        · cases h

/-- A step over a decoded instruction that answers a next state is that state, ended. -/
theorem step_of_exec (w : Word) (i : Instr) (t : State) (hr : s.run = .running) (hf : s.fetch = .ok w)
    (hd : decodeWord w = .ok i) (he : exec i (s.beginStep.setWord w) = .next t) : step s = .next t.endStep := by
  simp [step, hr, hf, hd, he]

/-- The decrement of a timer, as a number (R101). -/
theorem tick_toNat (t : Byte) : (tick t).toNat = t.toNat - 1 := by
  revert t; decide

/-- Phase 5 changes `pc` and nothing else. -/
theorem State.endStep_eq : s.endStep = { s with pc := s.endStep.pc } := by
  unfold State.endStep
  split <;> rfl

/-- Phase 5 on a machine whose instruction set `pc` itself does nothing. -/
theorem State.endStep_of_advanced (h : s.sig.advanced = true) : s.endStep = s := by
  simp [State.endStep, h]

/-- Phase 5 on a halted machine does nothing. -/
theorem State.endStep_of_halted (h : s.run = .halted) : s.endStep = s := by
  simp [State.endStep, h]

/-- Phase 5 otherwise moves `pc` to the next word. -/
theorem State.endStep_of_running (h : s.run = .running) (ha : s.sig.advanced = false) :
    s.endStep = { s with pc := s.pc + 2 } := by
  simp [State.endStep, h, ha]

end Sys2Proof.Machine
end

