-- ==== Sys2Proof/Tests/Slice0.lean ====
section
/-!
SUPPORT. The model's own tests. Expected results are the vectors of spec/95_test_vectors.md (V<n>, E<n>, P<n>) or worked
by hand from the rule named. The last part shows, for every obligation with hypotheses, a state and operands that meet
them.
-/

namespace Sys2Proof.Tests

open Sys2Proof Sys2Proof.Machine

/-! ## WellFormed refuses what the encoding has no room for (R15) -/

theorem test_wf_refuses_jp_4096 : (Instr.jp 0x1000).wf = false := by decide
theorem test_wf_refuses_call_4096 : (Instr.call 0x1000).wf = false := by decide
theorem test_wf_refuses_ldI_4096 : (Instr.ldI 0x1000).wf = false := by decide
theorem test_wf_refuses_jpV0_4096 : (Instr.jpV0 0x1000).wf = false := by decide
theorem test_wf_refuses_drw_16_rows : (Instr.drw 0 0 16).wf = false := by decide
theorem test_wf_accepts_the_largest_fields : (Instr.jp 0xFFF).wf = true ∧ (Instr.drw 15 15 15).wf = true := by decide

/-! ## Every constructor from a word of R85 -/

theorem test_decode_cls : decodeWord 0x00E0 = .ok .cls := by decide
theorem test_decode_ret : decodeWord 0x00EE = .ok .ret := by decide
theorem test_decode_jp : decodeWord 0x1ABC = .ok (.jp 0xABC) := by decide
theorem test_decode_call : decodeWord 0x2ABC = .ok (.call 0xABC) := by decide
theorem test_decode_se_imm : decodeWord 0x3A42 = .ok (.seImm 0xA 0x42) := by decide
theorem test_decode_sne_imm : decodeWord 0x4A42 = .ok (.sneImm 0xA 0x42) := by decide
theorem test_decode_se_reg : decodeWord 0x5120 = .ok (.seReg 1 2) := by decide
theorem test_decode_ld_imm : decodeWord 0x6F12 = .ok (.ldImm 0xF 0x12) := by decide
theorem test_decode_add_imm : decodeWord 0x7FFE = .ok (.addImm 0xF 0xFE) := by decide
theorem test_decode_ld_reg : decodeWord 0x8120 = .ok (.ldReg 1 2) := by decide
theorem test_decode_or_reg : decodeWord 0x8121 = .ok (.orReg 1 2) := by decide
theorem test_decode_and_reg : decodeWord 0x8122 = .ok (.andReg 1 2) := by decide
theorem test_decode_xor_reg : decodeWord 0x8123 = .ok (.xorReg 1 2) := by decide
theorem test_decode_add_reg : decodeWord 0x8674 = .ok (.addReg 6 7) := by decide
theorem test_decode_sub_reg : decodeWord 0x8675 = .ok (.subReg 6 7) := by decide
theorem test_decode_shr : decodeWord 0x8126 = .ok (.shr 1 2) := by decide
theorem test_decode_subn : decodeWord 0x8767 = .ok (.subn 7 6) := by decide
theorem test_decode_shl : decodeWord 0x8FCE = .ok (.shl 0xF 0xC) := by decide
theorem test_decode_sne_reg : decodeWord 0x9120 = .ok (.sneReg 1 2) := by decide
theorem test_decode_ld_i : decodeWord 0xA123 = .ok (.ldI 0x123) := by decide
theorem test_decode_jp_v0 : decodeWord 0xBF01 = .ok (.jpV0 0xF01) := by decide
theorem test_decode_rnd : decodeWord 0xC5F0 = .ok (.rnd 5 0xF0) := by decide
theorem test_decode_drw : decodeWord 0xD12F = .ok (.drw 1 2 15) := by decide
theorem test_decode_skp : decodeWord 0xE59E = .ok (.skp 5) := by decide
theorem test_decode_sknp : decodeWord 0xE6A1 = .ok (.sknp 6) := by decide
theorem test_decode_ld_vx_dt : decodeWord 0xFB07 = .ok (.ldVxDt 0xB) := by decide
theorem test_decode_ld_vx_k : decodeWord 0xF50A = .ok (.ldVxK 5) := by decide
theorem test_decode_ld_dt_vx : decodeWord 0xFA15 = .ok (.ldDtVx 0xA) := by decide
theorem test_decode_ld_st_vx : decodeWord 0xFB18 = .ok (.ldStVx 0xB) := by decide
theorem test_decode_add_i : decodeWord 0xF51E = .ok (.addI 5) := by decide
theorem test_decode_ld_f : decodeWord 0xF029 = .ok (.ldF 0) := by decide
theorem test_decode_ld_b : decodeWord 0xFE33 = .ok (.ldB 0xE) := by decide
theorem test_decode_store_regs : decodeWord 0xFF55 = .ok (.storeRegs 0xF) := by decide
theorem test_decode_load_regs : decodeWord 0xF265 = .ok (.loadRegs 2) := by decide

/-! V79 to V85 and V41: illegal words. -/

theorem test_decode_rejects : [(0x0000 : Word), 0x0123, 0x00E1, 0x5121, 0x8008, 0x8128, 0x9121, 0xE000, 0xF000].all
    (fun w => decide (decodeWord w = .error (.unknownOpcode w))) = true := by decide

theorem test_decode_bytes_high_first : decodeBytes [0x12, 0x04, 0xFF] = .ok (.jp 0x204, [0xFF]) := by decide
theorem test_decode_bytes_truncated : decodeBytes [0x12] = .error .truncated := by decide
theorem test_decode_table_word : decodeTableWord 16 0xD125 = some (.drw 1 2 5) := by decide

/-! ## One step

`ready w` is the post-load state with the word `w` at `pc`, no key down and the random byte 0, as the vectors start. -/

/-- The post-load state with a word at `pc` and the inputs of one step. -/
def ready (w : Word) (keys : BitVec 16 := 0) (rand8 : Byte := 0) : State :=
  { State.reset.withFetchWord 16 w.toNat with inputs := [⟨keys, rand8⟩] }

/-- The state a step leaves; the state itself where there is none. -/
def after (s : State) : State :=
  match step s with
  | .next t => t
  | .fault _ => s
  | .refused _ => s

/-- The state a meaning leaves; the state itself where there is none. -/
def afterExec (i : Instr) (s : State) : State :=
  match exec i s with
  | .next t => t
  | .fault _ => s
  | .refused _ => s

/-- Two registers at given values. -/
def withRegs (s : State) (x : RegIdx) (a : Byte) (y : RegIdx) (b : Byte) : State := (s.setReg x a).setReg y b

/-- The record of a halted machine. -/
def record (s : State) : Option (Condition × Nat × Option Word × Option Nat) :=
  s.fault.map fun r => (r.code, r.fpc.toNat, r.fword, r.faddr)

theorem test_fetch_word_runs_first : (ready 0x6A42).fetch = .ok 0x6A42 := by decide
theorem test_step_from_halted : step State.constructed = .fault .stepWhileHalted := rfl

/-! V1 to V10: control flow. -/
theorem test_jp : (after (ready 0x1ABC)).pc = 0xABC := by decide
theorem test_call : (fun t : State => (t.pc, t.sp.val, t.stack[3])) (after { ready 0x2ABC with sp := 3 }) = (0xABC, 4, 0x202) := by
  decide
theorem test_call_overflow : record (after { ready 0x2200 with sp := 16 }) = some (.stackOverflow, 0x200, some 0x2200, none) := by
  decide
theorem test_ret : (fun t : State => (t.pc, t.sp.val, t.stack[1]))
    (after { ready 0x00EE with sp := 2, stack := (State.reset.stack.set 0 0x300).set 1 0x456 }) = (0x456, 1, 0x456) := by decide
theorem test_ret_underflow : record (after (ready 0x00EE)) = some (.stackUnderflow, 0x200, some 0x00EE, none) := by decide
theorem test_jpV0 : (after ((ready 0xBFFF).setReg 0 0xFF)).pc = 0x10FE := by decide
theorem test_fetch_beyond : record (after { ready 0 with pc := 0x10FE }) = some (.memoryOutOfBounds, 0x10FE, none, some 0x10FE) := by
  decide
theorem test_fetch_last_byte : record (after { ready 0 with pc := 0xFFF }) = some (.memoryOutOfBounds, 0xFFF, none, some 0x1000) := by
  decide

/-! V11 to V23: skips. -/
theorem test_seImm : ((after ((ready 0x3A42).setReg 10 0x42)).pc, (after ((ready 0x3A42).setReg 10 0x43)).pc) = (0x204, 0x202) := by
  decide
theorem test_sneImm : ((after ((ready 0x4A42).setReg 10 0x42)).pc, (after ((ready 0x4A42).setReg 10 0x43)).pc) = (0x202, 0x204) := by
  decide
theorem test_seReg : ((after (withRegs (ready 0x5120) 1 7 2 7)).pc, (after (withRegs (ready 0x5120) 1 7 2 8)).pc) = (0x204, 0x202) := by
  decide
theorem test_sneReg : ((after (withRegs (ready 0x9120) 1 7 2 7)).pc, (after (withRegs (ready 0x9120) 1 7 2 8)).pc) = (0x202, 0x204) := by
  decide
theorem test_skp : ((after ((ready 0xE59E 0x8000).setReg 5 15)).pc, (after ((ready 0xE59E 0x7FFF).setReg 5 15)).pc) = (0x204, 0x202) := by
  decide
theorem test_sknp : ((after ((ready 0xE5A1 0x8000).setReg 5 15)).pc, (after ((ready 0xE5A1).setReg 5 15)).pc) = (0x202, 0x204) := by
  decide
theorem test_sknp_bad_key : record (after ((ready 0xE5A1).setReg 5 16)) = some (.keyIndexOutOfRange, 0x200, some 0xE5A1, none) := by
  decide
theorem test_skp_bad_key : record (after ((ready 0xE59E).setReg 5 16)) = some (.keyIndexOutOfRange, 0x200, some 0xE59E, none) := by
  decide

/-! E3, E4 and V27 to V43: registers and ALU. Each result is `V1` and `VF`, unless another register is named. -/

/-- `V1` and `VF` after a step with `V1` and `V2` at given values. -/
def alu (w : Word) (a b : Byte) : Byte × Byte :=
  let t := after (withRegs (ready w) 1 a 2 b)
  (t.reg 1, t.reg 15)

theorem test_ldImm : (after (ready 0x6F12)).reg 15 = 0x12 := by decide
theorem test_addImm : (after ((ready 0x7FFF).setReg 15 1)).reg 15 = 0 := by decide
theorem test_addImm_no_flag : alu 0x7101 0xFF 0 = (0, 0) := by decide
theorem test_ldReg : alu 0x8120 0 0x5A = (0x5A, 0) := by decide
theorem test_orReg : alu 0x8121 0xF0 0x0F = (0xFF, 0) := by decide
theorem test_andReg : alu 0x8122 0xF0 0x3C = (0x30, 0) := by decide
theorem test_xorReg : alu 0x8123 0xF0 0x3C = (0xCC, 0) := by decide
theorem test_addReg : (alu 0x8124 0x80 0x80, alu 0x8124 0x7F 0x80) = ((0, 1), (0xFF, 0)) := by decide
theorem test_addReg_vf : (after (withRegs (ready 0x8F24) 15 0x80 2 0x80)).reg 15 = 1 := by decide
theorem test_subReg : (alu 0x8125 3 5, alu 0x8125 5 5) = ((0xFE, 0), (0, 0)) := by decide
theorem test_subReg_vf : (after (withRegs (ready 0x8F25) 15 5 2 3)).reg 15 = 1 := by decide
theorem test_shr : alu 0x8126 0x05 0xFF = (0x02, 1) := by decide
theorem test_shr_vf : (after ((ready 0x8F06).setReg 15 2)).reg 15 = 0 := by decide
theorem test_subn : (alu 0x8127 3 5, alu 0x8127 5 5) = ((2, 1), (0, 0)) := by decide
theorem test_shl : alu 0x812E 0x81 0 = (0x02, 1) := by decide
theorem test_shl_vf : (after ((ready 0x8FFE).setReg 15 0x40)).reg 15 = 0 := by decide
theorem test_rnd : (after (ready 0xC5F0 0 0xAB)).reg 5 = 0xA0 := by decide

/-! V44 to V60: index and memory. -/
theorem test_ldI : (after (ready 0xA123)).i = 0x123 := by decide
theorem test_addI : (after { (ready 0xF51E).setReg 5 0x10 with i := 0xFFF8 }).i = 0x0008 := by decide
theorem test_ldF : ((after ((ready 0xF529).setReg 5 0xFF)).i, (after ((ready 0xF529).setReg 5 10)).i) = (0x4FB, 0x032) := by
  decide
theorem test_ldB : (fun t : State => (t.byteAt 0x300, t.byteAt 0x301, t.byteAt 0x302))
    (after { (ready 0xF533).setReg 5 123 with i := 0x300 }) = (1, 2, 3) := by decide
theorem test_ldB_beyond : record (after { (ready 0xF533).setReg 5 123 with i := 0xFFE }) =
    some (.memoryOutOfBounds, 0x200, some 0xF533, some 0x1000) := by decide
theorem test_storeRegs : (fun t : State => (t.byteAt 0xFFE, t.byteAt 0xFFF, t.i))
    (after { (ready 0xFF55).setReg 15 0xAB with i := 0xFF0 }) = (0, 0xAB, 0xFF0) := by decide
theorem test_storeRegs_beyond : record (after { ready 0xFF55 with i := 0xFF1 }) =
    some (.memoryOutOfBounds, 0x200, some 0xFF55, some 0x1000) := by decide
theorem test_loadRegs : (fun t : State => (t.reg 0, t.reg 1, t.reg 2, t.reg 3, t.i))
    (after { (ready 0xF265).storeBytes 0x300 [1, 2, 3, 4] with i := 0x300 }) = (1, 2, 3, 0, 0x300) := by decide
theorem test_loadRegs_beyond : record (after { ready 0xF165 with i := 0xFFF }) =
    some (.memoryOutOfBounds, 0x200, some 0xF165, some 0x1000) := by decide

/-! E6, E9 and V61 to V66: the display. -/
theorem test_cls : (fun t : State => (t.display, t.outputPort))
    (after ((ready 0x00E0).setDisplay (Display.blank.flip 3 7))) = (Display.blank, some ⟨false, true, false⟩) := by decide

/-- V62: glyph 0 drawn at column 62, row 31. -/
def wrapped : State := after (withRegs (ready 0xD015) 0 62 1 31)

theorem test_drw_wraps : [wrapped.display.pixel 31 62, wrapped.display.pixel 31 1, wrapped.display.pixel 31 2,
    wrapped.display.pixel 0 62, wrapped.display.pixel 0 63, wrapped.display.pixel 3 0] =
    [true, true, false, true, false, true] := by decide
theorem test_drw_flags : (wrapped.reg 15, wrapped.outputPort) = (0, some ⟨true, false, false⟩) := by decide
theorem test_drw_beyond : record (after { ready 0xD001 with i := 0x1000 }) =
    some (.memoryOutOfBounds, 0x200, some 0xD001, some 0x1000) := by decide

/-! V69 to V78: timers and keys. -/
theorem test_ldVxDt : (fun t : State => (t.dt, t.reg 1)) (after { ready 0xF107 with dt := 3 }) = (2, 2) := by decide
theorem test_ldDtVx : (after { (ready 0xF215).setReg 2 9 with dt := 1 }).dt = 9 := by decide
theorem test_ldStVx : (fun t : State => (t.st, t.sig.beep)) (after { (ready 0xF018).setReg 0 9 with st := 2 }) = (9, true) := by
  decide
theorem test_ldVxK_waits : (fun t : State => (t.pc, t.reg 5)) (after (ready 0xF50A)) = (0x200, 0) := by decide
theorem test_ldVxK_takes : (fun t : State => (t.pc, t.reg 3)) (after (ready 0xF30A 0x8002)) = (0x202, 1) := by decide
theorem test_fault_keeps_decrement : (after { ready 0 with dt := 5 }).dt = 4 ∧
    record (after { ready 0 with dt := 5 }) = some (.unknownOpcode, 0x200, some 0x0000, none) := by decide

/-! ## Witnesses: every obligation's hypotheses can be met, each clause at a boundary of its range -/

/-- A step of a state that has one. -/
abbrev Steps (s : State) : Prop := step s = .next (after s)

/-- The state after a meaning. -/
abbrev Execs (i : Instr) (s : State) : Prop := exec i s = .next (afterExec i s)

/-- A state that fetches one instruction runs no other. -/
theorem not_runs_other (s : State) (v w : Word) (i j : Instr) (hf : s.fetch = .ok v) (hd : decodeWord v = .ok i) (hne : i ≠ j) :
    ¬ Runs s w j := by
  rintro ⟨-, hw, hj⟩
  rw [hf] at hw
  cases hw
  rw [hd] at hj
  cases hj
  exact hne rfl

theorem witness_load_of_3584_bytes : (List.replicate 3584 (0 : Byte)).length ≤ 3584 ∧ State.constructed.cfg.resetRegs = .zero :=
  ⟨Nat.le_of_eq List.length_replicate, rfl⟩
theorem witness_load_of_3585_bytes : 3584 < (List.replicate 3585 (0 : Byte)).length := by
  rw [List.length_replicate]; decide
theorem witness_load_succeeds : State.constructed.load [] = (State.reset, none) := rfl
theorem witness_row_matches : (tableRow (.jp 0)) ∈ opcodeTable ∧ (tableRow (.jp 0)).matches 0x1FFF = true := by decide
theorem witness_runs : Runs (ready 0x6A42) 0x6A42 (.ldImm 10 0x42) := by refine ⟨rfl, ?_, ?_⟩ <;> decide
theorem witness_step_running_and_halted : (ready 0x6A42).run = .running ∧ State.constructed.run = .halted := by decide
theorem witness_fetch_bounds : ({ ready 0 with pc := 0xFFE } : State).pc.toNat + 1 ≤ 0xFFF ∧
    0xFFF < ({ ready 0 with pc := 0xFFF } : State).pc.toNat + 1 ∧ ({ ready 0 with pc := 0xFFF } : State).run = .running ∧
    0xFFF < ({ ready 0 with pc := 0x1000 } : State).pc.toNat + 1 := by decide
theorem witness_unknown_opcode : (ready 0).run = .running ∧ (ready 0).fetch = .ok 0 ∧ ∀ r ∈ opcodeTable, r.matches 0 = false := by
  decide
theorem witness_fault_at_decode : Steps (ready 0) ∧ (after (ready 0)).run = .halted ∧ (ready 0).fetch = .ok 0 := by
  refine ⟨rfl, ?_, ?_⟩ <;> decide
theorem witness_fault_at_fetch : Steps { ready 0 with pc := 0xFFF } ∧ (after { ready 0 with pc := 0xFFF }).run = .halted ∧
    ({ ready 0 with pc := 0xFFF } : State).fetch = .error 0x1000 := by
  refine ⟨rfl, ?_, ?_⟩ <;> decide
theorem witness_timers_untouched : Steps (ready 0x6A42) ∧ ∀ w x, ¬ Runs (ready 0x6A42) w (.ldDtVx x) ∧ ¬ Runs (ready 0x6A42) w (.ldStVx x) :=
  ⟨rfl, fun w x => ⟨not_runs_other _ 0x6A42 w (.ldImm 10 0x42) _ rfl rfl (by simp), not_runs_other _ 0x6A42 w (.ldImm 10 0x42) _ rfl rfl (by simp)⟩⟩
theorem witness_timers_written : Runs (ready 0xF215) 0xF215 (.ldDtVx 2) ∧ Runs (ready 0xF218) 0xF218 (.ldStVx 2) ∧
    Steps (ready 0xF215) ∧ Steps (ready 0xF218) := by
  refine ⟨⟨rfl, ?_, ?_⟩, ⟨rfl, ?_, ?_⟩, rfl, rfl⟩ <;> decide
theorem witness_beep : Steps { ready 0x1200 with st := 2 } ∧ (after { ready 0x1200 with st := 2 }).outputPort = some ⟨false, false, true⟩ ∧
    (after { ready 0x1200 with st := 1 }).outputPort = some ⟨false, false, false⟩ ∧
    (after { ready 0x1200 with st := 2 }).run = .running := by
  refine ⟨rfl, ?_, ?_, ?_⟩ <;> decide
theorem witness_flags : Runs (ready 0xD001) 0xD001 (.drw 0 0 1) ∧ Runs (ready 0x00E0) 0x00E0 .cls ∧ Steps (ready 0xD001) ∧
    (after (ready 0xD001)).run = .running ∧ (after (ready 0x00E0)).run = .running := by
  refine ⟨⟨rfl, ?_, ?_⟩, ⟨rfl, ?_, ?_⟩, rfl, ?_, ?_⟩ <;> decide
theorem witness_engine_advances : setsPc (.ldImm 10 0x42) = false ∧ (after (ready 0x6A42)).run = .running ∧
    Runs (ready 0xF50A) 0xF50A (.ldVxK 5) ∧ (ready 0xF50A).nextInput.keys = 0 ∧ (ready 0xF50A 0x8000).nextInput.keys ≠ 0 ∧
    setsPc (.jp 0x200) = true ∧ Runs (ready 0x1200) 0x1200 (.jp 0x200) := by
  refine ⟨rfl, ?_, ⟨rfl, ?_, ?_⟩, ?_, ?_, rfl, ⟨rfl, ?_, ?_⟩⟩ <;> decide
theorem witness_invariant : Inv (ready 0x6A42) ∧ Steps (ready 0x6A42) :=
  ⟨⟨by decide, by decide, by decide, fun _ => rfl, fun r h => nomatch h⟩, rfl⟩
theorem witness_random_byte_unread : (∀ w x nn, ¬ Runs (ready 0x6A42) w (.rnd x nn)) ∧
    Steps { ready 0x6A42 with inputs := [⟨0, 0⟩] } ∧ Steps { ready 0x6A42 with inputs := [⟨0, 0xFF⟩] } :=
  ⟨fun w x nn => not_runs_other _ 0x6A42 w (.ldImm 10 0x42) _ rfl rfl (by simp), rfl, rfl⟩
theorem witness_keypad_unread :
    (∀ w x, ¬ Runs (ready 0x6A42) w (.skp x) ∧ ¬ Runs (ready 0x6A42) w (.sknp x) ∧ ¬ Runs (ready 0x6A42) w (.ldVxK x)) ∧
      Steps { ready 0x6A42 with inputs := [⟨0, 0⟩] } ∧ Steps { ready 0x6A42 with inputs := [⟨0x8000, 0⟩] } :=
  ⟨fun w x => ⟨not_runs_other _ 0x6A42 w (.ldImm 10 0x42) _ rfl rfl (by simp), not_runs_other _ 0x6A42 w (.ldImm 10 0x42) _ rfl rfl (by simp),
    not_runs_other _ 0x6A42 w (.ldImm 10 0x42) _ rfl rfl (by simp)⟩, rfl, rfl⟩
theorem witness_idle : IdleAt (ready 0x1200) := ⟨0x1200, by refine ⟨rfl, ?_, ?_⟩ <;> decide⟩
theorem witness_key_wait : Runs (ready 0xF50A) 0xF50A (.ldVxK 5) ∧ NoKeyFor 1 (ready 0xF50A) :=
  ⟨⟨rfl, rfl, rfl⟩, by decide, by decide⟩
theorem witness_exec_completes_and_halts : (ready 0).run = .running ∧ Execs .ret { ready 0 with sp := 16 } ∧
    (afterExec .ret { ready 0 with sp := 16 }).run = .running ∧ Execs .ret (ready 0) ∧ (afterExec .ret (ready 0)).run = .halted := by
  refine ⟨rfl, rfl, ?_, rfl, ?_⟩ <;> decide
theorem witness_stack_depths : ({ ready 0 with sp := 15 } : State).sp.val < 16 ∧ ({ ready 0 with sp := 16 } : State).sp.val = 16 ∧
    ({ ready 0 with sp := 16 } : State).sp.val = (15 : Fin 16).val + 1 ∧ ({ ready 0 with sp := 1 } : State).sp.val = (0 : Fin 16).val + 1 ∧
    (ready 0).sp.val = 0 := by decide
theorem witness_return_after_call : Execs (.call 0xFFF) { ready 0 with sp := 15 } := rfl

/-- The state after a call at depth 3 whose subroutine made a nested call and returned from it. -/
def afterNested : State := afterExec .ret (afterExec (.call 0x400) (afterExec (.call 0x300) { ready 0 with sp := 3 }))

theorem witness_nested_call : afterNested.sp = (afterExec (.call 0x300) { ready 0 with sp := 3 }).sp ∧
    afterNested.stack[3] = (afterExec (.call 0x300) { ready 0 with sp := 3 }).stack[3] ∧
    afterNested.stack ≠ (afterExec (.call 0x300) { ready 0 with sp := 3 }).stack := by decide
theorem witness_key_index : (((ready 0).setReg 5 15).reg 5).toNat ≤ 15 ∧ 15 < (((ready 0).setReg 5 16).reg 5).toNat := by decide
theorem witness_not_vf : (0 : RegIdx) ≠ 15 ∧ (14 : RegIdx) ≠ 15 := by decide
theorem witness_shift_sources : (ready 0).cfg.shiftSrc = .vx ∧
    ({ ready 0 with cfg := { defaultConfig with shiftSrc := .vy } } : State).cfg.shiftSrc ≠ .vx := by decide
theorem witness_bcd_block : Memory.wf (ready 0).cfg (ready 0).mem = true ∧ ({ ready 0 with i := 0xFFD } : State).i.toNat + 2 ≤ 0xFFF := by
  decide
theorem witness_register_block : ({ ready 0 with i := 0xFF0 } : State).i.toNat + (15 : RegIdx).val ≤ 0xFFF ∧
    ({ ready 0 with i := 0xFFF } : State).i.toNat + (0 : RegIdx).val ≤ 0xFFF := by decide
theorem witness_store_then_load : Execs (.storeRegs 15) { ready 0 with i := 0xFF0 } := rfl
theorem witness_blocks_beyond : 0xFFF < ({ ready 0 with i := 0xFFE } : State).i.toNat + 2 ∧
    0xFFF < ({ ready 0 with i := 0xFF1 } : State).i.toNat + (15 : RegIdx).val ∧
    0xFFF < ({ ready 0 with i := 0x1000 } : State).i.toNat + 1 - 1 ∧ 0x1000 ≤ ({ ready 0 with i := 0x1000 } : State).i.toNat := by decide
theorem witness_stored_registers : Memory.wf (ready 0xF155).cfg (ready 0xF155).mem = true ∧
    (ready 0xF155).pc.toNat + 3 ≤ 0xFFF ∧ Runs { ready 0xF155 with i := 0x202 } 0xF155 (.storeRegs 1) ∧
    ({ ready 0xF155 with i := 0x202 } : State).i.toNat + (1 : RegIdx).val ≤ 0xFFF := by
  refine ⟨?_, ?_, ⟨rfl, ?_, ?_⟩, ?_⟩ <;> decide
theorem witness_stored_digits : Runs { ready 0xF533 with i := 0x201 } 0xF533 (.ldB 5) ∧
    ({ ready 0xF533 with i := 0x201 } : State).i.toNat + 2 ≤ 0xFFF ∧
    ({ ready 0xF533 with pc := 0xFFC } : State).pc.toNat + 3 ≤ 0xFFF := by
  refine ⟨⟨rfl, ?_, ?_⟩, ?_, ?_⟩ <;> decide
theorem witness_canonical : Memory.wf defaultConfig [(0x000, 0), (0xFFF, 1)] = true := by decide
theorem witness_sprite_rows : (0 = 0 ∨ ({ ready 0 with i := 0xFFFF } : State).i.toNat + 0 - 1 ≤ 0xFFF) ∧
    ({ ready 0 with i := 0xFF1 } : State).i.toNat + 15 - 1 ≤ 0xFFF := by decide
theorem witness_collision : spriteCovers (ready 0) 0 1 0 0 0 0 ∧
    ((ready 0).setDisplay (Display.blank.flip 0 0)).display.pixel 0 0 = true ∧ (ready 0).display.pixel 0 0 = false :=
  ⟨⟨0, 0, by decide, by decide, by decide, rfl, rfl⟩, by decide, by decide⟩
theorem witness_draw_twice : Execs (.drw 0 1 15) { ready 0 with i := 0xFF1 } ∧ (ready 0).display = Display.blank := ⟨rfl, by decide⟩
theorem witness_delay_read : Runs (ready 0xF107) 0xF107 (.ldVxDt 1) := ⟨rfl, rfl, rfl⟩
theorem witness_snapshots : (ready 0).sig.keys = 0 ∧ (ready 0).beginStep.sig.keys = 0 ∧ (ready 0 0x8000).beginStep.sig.keys ≠ 0 ∧
    (ready 0).cfg.keyChoice = .lowest ∧ (ready 0 0x8000).beginStep.sig.keys.getLsbD 15 = true := by decide

end Sys2Proof.Tests
end

/-! # Frames of the state's operations and of `exec`

SUPPORT. Which parts of the state each operation leaves unchanged, and from them the one statement about `exec` that the
claims about a step rest on: an instruction takes a fatal condition, or changes only the parts its rule writes. -/

namespace Sys2Proof.Machine

variable {l m : List Part} {s t u : State}

/-- A frame may name more parts than change. -/
theorem Frame.mono (h : Frame l s t) (hsub : l ⊆ m) : Frame m s t :=
  fun p hp => h p fun hl => hp (hsub hl)

theorem Part.same_trans (p : Part) (hst : p.same s t) (htu : p.same t u) : p.same s u := by
  cases p <;> simp_all [Part.same]

/-- Two changes in a row change the parts of both. -/
theorem Frame.trans (hst : Frame l s t) (htu : Frame m t u) : Frame (l ++ m) s u :=
  fun p hp => p.same_trans (hst p fun hl => hp (by simp [hl])) (htu p fun hm => hp (by simp [hm]))

/-! ## One frame per operation -/

theorem frame_setReg {x : RegIdx} {b : Byte} : Frame [.regs] s (s.setReg x b) := by
  intro p hp; cases p <;> simp_all [Part.same]

theorem frame_setRegs {v : Vector Byte 16} : Frame [.regs] s (s.setRegs v) := by
  intro p hp; cases p <;> simp_all [Part.same]

theorem frame_setVF {b : Byte} : Frame [.regs] s (s.setVF b) := frame_setReg

theorem frame_setResult {x : RegIdx} {b : Byte} {f : Bool} : Frame [.regs] s (s.setResult x b f) := by
  rw [State.setResult_eq]; exact frame_setRegs

theorem frame_setI {a : Word} : Frame [.index] s (s.setI a) := by
  intro p hp; cases p <;> simp_all [Part.same]

theorem frame_setDT {b : Byte} : Frame [.delay] s (s.setDT b) := by
  intro p hp; cases p <;> simp_all [Part.same]

theorem frame_setST {b : Byte} : Frame [.sound] s (s.setST b) := by
  intro p hp; cases p <;> simp_all [Part.same]

theorem frame_storeBytes {a : Nat} {bs : List Byte} : Frame [.memory] s (s.storeBytes a bs) := by
  intro p hp; cases p <;> simp_all [Part.same]

theorem frame_setDisplay {d : Display} : Frame [.display] s (s.setDisplay d) := by
  intro p hp; cases p <;> simp_all [Part.same]

theorem frame_setRender : Frame [.render] s s.setRender := by
  intro p hp; cases p <;> simp_all [Part.same]

theorem frame_setClear : Frame [.clear] s s.setClear := by
  intro p hp; cases p <;> simp_all [Part.same]

theorem frame_hold : Frame [.advanced] s s.hold := by
  intro p hp; cases p <;> simp_all [Part.same]

theorem frame_jump {a : Word} : Frame [.pc, .advanced] s (s.jump a) := by
  intro p hp; cases p <;> simp_all [Part.same]

theorem frame_skipIf {c : Bool} : Frame [.pc, .advanced] s (s.skipIf c) := frame_jump

theorem frame_push? {a : Word} (h : s.push? a = some t) : Frame [.stack, .depth] s t := by
  unfold State.push? at h
  split at h <;> cases h
  intro p hp
  cases p <;> simp_all [Part.same, State.reg, State.byteAt]

theorem frame_pop? {a : Word} (h : s.pop? = some (a, t)) : Frame [.depth] s t := by
  unfold State.pop? at h
  split at h <;> cases h
  intro p hp
  cases p <;> simp_all [Part.same, State.reg, State.byteAt]

/-! ## What an instruction can do -/

variable {i : Instr}

/-- An instruction takes a fatal condition, changing nothing else (R252, R254), or changes only the parts its rule
writes, the run status not among them. -/
theorem exec_raises_or_frames (h : exec i s = .next t) :
    (∃ c a, t = s.raise c a) ∨ Frame (mayChange i) s t := by
  cases i with
  | ldImm | addImm | ldReg | orReg | andReg | xorReg | rnd | ldVxDt => cases h; exact .inr frame_setReg
  | addReg | subReg | shr | subn | shl => cases h; exact .inr frame_setResult
  | ldI | addI | ldF => cases h; exact .inr frame_setI
  | ldDtVx => cases h; exact .inr frame_setDT
  | ldStVx => cases h; exact .inr frame_setST
  | jp | jpV0 => cases h; exact .inr frame_jump
  | seImm | sneImm | seReg | sneReg => cases h; exact .inr frame_skipIf
  | cls => cases h; exact .inr (frame_setDisplay.trans frame_setClear)
  | ret =>
    simp only [exec, execRet] at h
    split at h <;> cases h
    · exact .inl ⟨_, _, rfl⟩
    · next hpop => exact .inr (((frame_pop? hpop).trans frame_jump).mono (by simp [mayChange]))
  | call =>
    simp only [exec, execCall] at h
    split at h <;> cases h
    · exact .inl ⟨_, _, rfl⟩
    · next hpush => exact .inr (((frame_push? hpush).trans frame_jump).mono (by simp [mayChange]))
  | skp | sknp =>
    cases h
    split
    · exact .inr frame_skipIf
    · exact .inl ⟨_, _, rfl⟩
  | ldVxK =>
    cases h
    split
    · exact .inr (frame_hold.mono (by simp [mayChange]))
    · exact .inr (frame_setReg.mono (by simp [mayChange]))
  | ldB | storeRegs =>
    simp only [exec, execLdB, execStoreRegs] at h
    split at h <;> cases h
    · exact .inl ⟨_, _, rfl⟩
    · exact .inr frame_storeBytes
  | loadRegs =>
    simp only [exec, execLoadRegs] at h
    split at h <;> cases h
    · exact .inl ⟨_, _, rfl⟩
    · exact .inr frame_setRegs
  | drw =>
    simp only [exec, execDrw] at h
    split at h <;> cases h
    · exact .inl ⟨_, _, rfl⟩
    · exact .inr (((frame_setDisplay.trans frame_setVF).trans frame_setRender).mono (by simp [mayChange]))

/-- An instruction that leaves the machine RUNNING has changed only the parts its rule writes. -/
theorem exec_frame_of_running (h : exec i s = .next t) (hr : t.run = .running) : Frame (mayChange i) s t := by
  rcases exec_raises_or_frames h with ⟨c, a, rfl⟩ | hf
  · cases hr
  · exact hf

/-- Only `FX15` writes `DT` (R30, R233). -/
theorem exec_dt (h : exec i s = .next t) (hi : ∀ x, i ≠ .ldDtVx x) : t.dt = s.dt := by
  rcases exec_raises_or_frames h with ⟨c, a, rfl⟩ | hf
  · rfl
  · exact hf .delay (by cases i <;> simp_all [mayChange])

/-- Only `FX18` writes `ST` (R30, R234). -/
theorem exec_st (h : exec i s = .next t) (hi : ∀ x, i ≠ .ldStVx x) : t.st = s.st := by
  rcases exec_raises_or_frames h with ⟨c, a, rfl⟩ | hf
  · rfl
  · exact hf .sound (by cases i <;> simp_all [mayChange])

/-- An instruction that sets `pc` itself, `FX0A` aside, signals so whenever it leaves the machine RUNNING (R104). -/
theorem exec_advanced_of_setsPc (h : exec i s = .next t) (hr : t.run = .running) (hi : setsPc i = true)
    (hk : ∀ x, i ≠ .ldVxK x) : t.sig.advanced = true := by
  cases i with
  | jp | jpV0 | seImm | sneImm | seReg | sneReg => cases h; rfl
  | ldVxK x => exact absurd rfl (hk x)
  | ret =>
    simp only [exec, execRet] at h
    split at h <;> cases h
    · cases hr
    · rfl
  | call =>
    simp only [exec, execCall] at h
    split at h <;> cases h
    · cases hr
    · rfl
  | skp | sknp =>
    cases h
    split at hr
    · next hle => simp [hle]
    · cases hr
  | _ => cases hi

/-- No key is chosen exactly while no key is down (R232). -/
theorem chosenKey_eq_none_iff (s : State) : chosenKey s = none ↔ s.sig.keys = 0 := by
  have hdown : keysDown s = [] ↔ s.sig.keys = 0 := by
    simp only [keysDown, keyDown, List.filter_eq_nil_iff, List.mem_range, Bool.not_eq_true]
    exact ⟨fun h => BitVec.eq_of_getLsbD_eq fun k hk => by simpa using h k hk, fun h k _ => by simp [h]⟩
  rw [← hdown]
  unfold chosenKey
  split
  · next hnil => simp [hnil]
  · next hcons => split <;> simp [hcons]

/-- `FX0A` with no key down holds the machine at its own address (R107). -/
theorem exec_ldVxK_of_no_key {x : RegIdx} (hkeys : s.sig.keys = 0) : exec (.ldVxK x) s = .next s.hold := by
  simp only [exec, execLdVxK, (chosenKey_eq_none_iff s).mpr hkeys]

/-- `FX0A` with a key down writes one register (R232). -/
theorem exec_ldVxK_of_key {x : RegIdx} (hkeys : s.sig.keys ≠ 0) :
    ∃ k, exec (.ldVxK x) s = .next (s.setReg x k) := by
  obtain ⟨k, hk⟩ := Option.ne_none_iff_exists'.mp (mt (chosenKey_eq_none_iff s).mp hkeys)
  exact ⟨k, by simp only [exec, execLdVxK, hk]⟩

end Sys2Proof.Machine

/-! # The step

Phase 1, the timers (R101), and phase 5, the advance of `pc` (R104), carried from `exec` to `step`. -/

namespace Sys2Proof.Machine

variable {s t : State} {w : Word} {i : Instr}

/-! ## The state the instruction runs in, and phase 5 -/

@[simp] theorem execState_pc : (execState s w).pc = s.pc := rfl
@[simp] theorem execState_dt : (execState s w).dt = tick s.dt := rfl
@[simp] theorem execState_st : (execState s w).st = tick s.st := rfl
@[simp] theorem execState_reg (x : RegIdx) : (execState s w).reg x = s.reg x := rfl
@[simp] theorem execState_sig_keys : (execState s w).sig.keys = s.nextInput.keys := rfl
@[simp] theorem execState_sig_advanced : (execState s w).sig.advanced = false := rfl

@[simp] theorem State.endStep_dt (s : State) : s.endStep.dt = s.dt := by rw [State.endStep_eq]
@[simp] theorem State.endStep_st (s : State) : s.endStep.st = s.st := by rw [State.endStep_eq]
@[simp] theorem State.endStep_run (s : State) : s.endStep.run = s.run := by rw [State.endStep_eq]
@[simp] theorem State.endStep_sig (s : State) : s.endStep.sig = s.sig := by rw [State.endStep_eq]

/-- A step over a decoded instruction is that instruction, then phase 5. -/
theorem step_of_runs (hruns : Runs s w i) (h : step s = .next t) :
    ∃ u, exec i (execState s w) = .next u ∧ t = u.endStep := by
  obtain ⟨-, hfetch, hdecode⟩ := hruns
  obtain ⟨-, ⟨a, hf, -⟩ | ⟨w', e, hf, hd, -⟩ | ⟨w', j, u, hf, hd, he, ht⟩⟩ := step_cases s t h
  all_goals cases hfetch.symm.trans hf
  all_goals cases hdecode.symm.trans hd
  exact ⟨u, he, ht⟩

/-! ## Timers (R101) -/

/-- Phase 1 decrements both timers in a step that halts before an instruction runs; every other step is its instruction,
then phase 5. -/
theorem step_timers_or_runs (h : step s = .next t) :
    (t.dt = tick s.dt ∧ t.st = tick s.st) ∨
      ∃ w i u, Runs s w i ∧ exec i (execState s w) = .next u ∧ t = u.endStep := by
  obtain ⟨hr, ⟨a, -, rfl⟩ | ⟨w, e, -, -, rfl⟩ | ⟨w, i, u, hf, hd, he, rfl⟩⟩ := step_cases s t h
  · exact .inl ⟨rfl, rfl⟩
  · exact .inl ⟨rfl, rfl⟩
  · exact .inr ⟨w, i, u, ⟨hr, hf, hd⟩, he, rfl⟩

/-- A step that does not run `FX15` decrements `DT`, whether it waits, completes or faults. -/
theorem step_dt (h : step s = .next t) (hno : ∀ w x, ¬ Runs s w (.ldDtVx x)) : t.dt = tick s.dt := by
  obtain ⟨hdt, -⟩ | ⟨w, i, u, hruns, he, rfl⟩ := step_timers_or_runs h
  · exact hdt
  · simpa using exec_dt he fun x hx => hno w x (hx ▸ hruns)

/-- A step that does not run `FX18` decrements `ST`, whether it waits, completes or faults. -/
theorem step_st (h : step s = .next t) (hno : ∀ w x, ¬ Runs s w (.ldStVx x)) : t.st = tick s.st := by
  obtain ⟨-, hst⟩ | ⟨w, i, u, hruns, he, rfl⟩ := step_timers_or_runs h
  · exact hst
  · simpa using exec_st he fun x hx => hno w x (hx ▸ hruns)

/-- Settles O16: a step decrements both timers before the instruction, and only `FX15` and `FX18` then write one. -/
theorem timersDecrementEveryStep : Obligations.TimersDecrementEveryStep := by
  intro s t h
  refine ⟨fun hno => ?_, fun hno => ?_, fun w x hruns => ?_, fun w x hruns => ?_⟩
  · rw [step_dt h hno, tick_toNat]
  · rw [step_st h hno, tick_toNat]
  · obtain ⟨u, he, rfl⟩ := step_of_runs hruns h
    cases he
    simp
  · obtain ⟨u, he, rfl⟩ := step_of_runs hruns h
    cases he
    simp

/-! ## The advance of `pc` (R104) -/

/-- An instruction that does not set `pc` itself leaves `pc` and the signal alone, so phase 5 adds 2. -/
theorem endStep_pc_of_not_setsPc {u : State} (he : exec i (execState s w) = .next u) (hr : u.run = .running)
    (hi : setsPc i = false) : u.endStep.sig.advanced = false ∧ u.endStep.pc = s.pc + 2 := by
  have hframe := exec_frame_of_running he hr
  have hpc : u.pc = s.pc := hframe .pc (by cases i <;> simp_all [mayChange, setsPc])
  have hadv : u.sig.advanced = false := hframe .advanced (by cases i <;> simp_all [mayChange, setsPc])
  simp [State.endStep_of_running u hr hadv, hpc, hadv]

/-- `FX0A` signals, and so keeps `pc`, exactly while no key is down (R107, R232). -/
theorem endStep_pc_of_ldVxK {u : State} {x : RegIdx} (he : exec (.ldVxK x) (execState s w) = .next u)
    (hr : u.run = .running) : u.endStep.sig.advanced = decide (s.nextInput.keys = 0) ∧
      u.endStep.pc = if s.nextInput.keys = 0 then s.pc else s.pc + 2 := by
  by_cases hkeys : s.nextInput.keys = 0
  · rw [exec_ldVxK_of_no_key hkeys] at he
    cases he
    rw [State.endStep_of_advanced _ rfl, if_pos hkeys, decide_eq_true hkeys]
    exact ⟨rfl, rfl⟩
  · obtain ⟨k, hk⟩ := exec_ldVxK_of_key (s := execState s w) (x := x) hkeys
    rw [hk] at he
    cases he
    rw [State.endStep_of_running _ hr rfl, if_neg hkeys, decide_eq_false hkeys]
    exact ⟨rfl, rfl⟩

/-- Settles O20, by the three ways an instruction can treat `pc`: leave it, wait on it (`FX0A`), or set it. -/
theorem engineAdvancesPcByTwo : Obligations.EngineAdvancesPcByTwo := by
  intro s t w i hruns h hr
  obtain ⟨u, he, rfl⟩ := step_of_runs hruns h
  rw [State.endStep_run] at hr
  refine ⟨rfl, endStep_pc_of_not_setsPc he hr, ?_, fun hi hk => ?_⟩
  · rintro x rfl
    exact endStep_pc_of_ldVxK he hr
  · have hadv := exec_advanced_of_setsPc he hr hi hk
    rw [State.endStep_of_advanced u hadv]
    exact ⟨hadv, he⟩

end Sys2Proof.Machine

/-! # Control flow -/

namespace Sys2Proof.Machine

/-- A 12-bit address operand loses no bit as a word. -/
theorem addrOperand_toNat {nnn : Nat} (h : nnn ≤ 0xFFF) : (addrOperand nnn).toNat = nnn := by
  rw [addrOperand, BitVec.toNat_ofNat, Nat.mod_eq_of_lt (by omega)]

/-- Settles O29: `1NNN` is one `State.jump`, and its operand fits a word. -/
theorem jumpGoesToItsTarget : Obligations.JumpGoesToItsTarget := by
  intro nnn s hnnn
  exact ⟨s.jump (addrOperand nnn), rfl, addrOperand_toNat hnnn, State.jump_sig_advanced s _, frame_jump⟩

end Sys2Proof.Machine

/-! # Skips -/

namespace Sys2Proof.Machine

/-- What every skip that takes no fatal condition does (R140), for a condition the model tests as the Boolean `c` and a
claim writes as the proposition `p`. -/
theorem exec_of_skipIf {i : Instr} {s : State} {c : Bool} {p : Prop} [Decidable p]
    (he : exec i s = .next (s.skipIf c)) (hc : c = true ↔ p) :
    ∃ t, exec i s = .next t ∧ t.pc = (if p then s.pc + 4 else s.pc + 2) ∧ t.sig.advanced = true ∧
      Frame [.pc, .advanced] s t := by
  have hpc : (s.skipIf c).pc = if p then s.pc + 4 else s.pc + 2 := by simp only [State.skipIf_pc, hc]
  exact ⟨s.skipIf c, he, hpc, State.skipIf_sig_advanced s c, frame_skipIf⟩

/-- Settles O34: both skips are R140's mechanism, on the equality test (R141) and on its negation (R142). -/
theorem immediateSkips : Obligations.ImmediateSkips := by
  intro x nn s
  constructor
  · exact exec_of_skipIf rfl beq_iff_eq
  · exact exec_of_skipIf rfl bne_iff_ne

end Sys2Proof.Machine

/-! # Registers and ALU -/

namespace Sys2Proof.Machine

variable {s : State} {x : RegIdx} {b : Byte}

theorem regsExcept_setReg : RegsExcept [x] s (s.setReg x b) := by
  intro r hr
  rw [State.setReg_reg, if_neg (List.ne_of_not_mem_cons hr)]

/-- What every instruction that writes one register does, for any fact `P` about the byte it writes. -/
theorem exec_of_setReg {i : Instr} {P : Byte → Prop} (he : exec i s = .next (s.setReg x b)) (hb : P b) :
    ∃ t, exec i s = .next t ∧ P (t.reg x) ∧ RegsExcept [x] s t ∧ Frame [.regs] s t := by
  have hx : (s.setReg x b).reg x = b := by rw [State.setReg_reg, if_pos rfl]
  exact ⟨s.setReg x b, he, hx.symm ▸ hb, regsExcept_setReg, frame_setReg⟩

/-- Settles O38: each of the three is one `State.setReg`, of the immediate (R162), of the sum modulo 256 (R163) or of
the source register (R164). -/
theorem loadsAndImmediateAdd : Obligations.LoadsAndImmediateAdd := by
  intro x y nn s
  refine ⟨?_, ?_, ?_⟩
  · exact exec_of_setReg (P := (· = nn)) rfl rfl
  · exact exec_of_setReg (P := fun r => r.toNat = ((s.reg x).toNat + nn.toNat) % 256) rfl (addResult_toNat _ _)
  · exact exec_of_setReg (P := (· = s.reg y)) rfl rfl

end Sys2Proof.Machine

/-! # Index register and memory -/

namespace Sys2Proof.Machine

/-- Five times a byte is at most 1275 (R193), so the glyph address loses no bit as a word. -/
theorem glyphAddress_toNat (s : State) (x : RegIdx) : (glyphAddress s x).toNat = (s.reg x).toNat * 5 := by
  have hbyte : (s.reg x).toNat < 256 := (s.reg x).isLt
  rw [glyphAddress, BitVec.toNat_ofNat, Nat.mod_eq_of_lt (by omega)]

/-- What every instruction that writes `I` alone does, for the number `n` the written word stands for. -/
theorem exec_of_setI {i : Instr} {s : State} {a : Word} {n : Nat} (he : exec i s = .next (s.setI a)) (ha : a.toNat = n) :
    ∃ t, exec i s = .next t ∧ t.i.toNat = n ∧ Frame [.index] s t := by
  have hi : (s.setI a).i.toNat = n := by rw [State.setI_i, ha]
  exact ⟨s.setI a, he, hi, frame_setI⟩

/-- Settles O45: both are one `State.setI`, of the immediate (R191) or of the glyph address (R193). -/
theorem indexLoads : Obligations.IndexLoads := by
  intro x nnn s hnnn
  constructor
  · exact exec_of_setI rfl (addrOperand_toNat hnnn)
  · exact exec_of_setI rfl (glyphAddress_toNat s x)

end Sys2Proof.Machine

/-! # Display -/

namespace Sys2Proof.Machine

/-- Settles O54: `00E0` is one `State.setDisplay` of the blank display, then one `State.setClear`. -/
theorem clearScreenTurnsEveryPixelOff : Obligations.ClearScreenTurnsEveryPixelOff := by
  intro s
  have hpixel (y x : Nat) : (s.setDisplay Display.blank).setClear.display.pixel y x = false := by
    rw [State.setClear_display, State.setDisplay_display, Display.pixel_blank]
  have hframe : Frame [.display, .clear] s (s.setDisplay Display.blank).setClear :=
    frame_setDisplay.trans frame_setClear
  exact ⟨(s.setDisplay Display.blank).setClear, rfl, hpixel, State.setClear_sig_clear _, hframe⟩

end Sys2Proof.Machine

/-! # Timers and keys -/

namespace Sys2Proof.Machine

@[simp] theorem State.endStep_reg (s : State) (x : RegIdx) : s.endStep.reg x = s.reg x := by rw [State.endStep_eq]; rfl

/-- A step that runs `FX07` leaves the decremented delay timer in its register (R231): phase 1 is before it, and phase 5
keeps the registers. -/
theorem step_ldVxDt {s : State} {w : Word} {x : RegIdx} (hruns : Runs s w (.ldVxDt x)) :
    ∃ t, step s = .next t ∧ t.reg x = tick s.dt := by
  obtain ⟨hrun, hfetch, hdecode⟩ := hruns
  have hstep : step s = .next ((execState s w).setReg x (tick s.dt)).endStep :=
    step_of_exec s w _ _ hrun hfetch hdecode rfl
  exact ⟨_, hstep, by rw [State.endStep_reg, State.setReg_reg, if_pos rfl]⟩

/-- Settles O57: `FX07` is one `State.setReg` of the delay timer and `FX15` one `State.setDT`; in a step, phase 1 has
decremented the timer that `FX07` reads. -/
theorem delayTimerReadAndSet : Obligations.DelayTimerReadAndSet := by
  intro x s
  refine ⟨?_, ?_, fun w hruns => ?_⟩
  · exact exec_of_setReg (P := (· = s.dt)) rfl rfl
  · exact ⟨s.setDT (s.reg x), rfl, State.setDT_dt s _, frame_setDT⟩
  · obtain ⟨t, hstep, hreg⟩ := step_ldVxDt hruns
    exact ⟨t, hstep, by rw [hreg, tick_toNat]⟩

end Sys2Proof.Machine

/-! # Encoding

The decoder against the encoder (R81, R83), against the opcode table (R85, R86) and against the list of illegal words
(R87). -/

namespace Sys2Proof

open Laws

variable {w : Word} {i : Instr}

theorem decodeWord_eq_ok_iff : decodeWord w = .ok i ↔ instrOfWord w = some i := by
  unfold decodeWord
  cases instrOfWord w <;> simp

theorem decodeWord_eq_error_iff : decodeWord w = .error (.unknownOpcode w) ↔ instrOfWord w = none := by
  unfold decodeWord
  cases instrOfWord w <;> simp

/-! ## Decode and encode agree -/

/-- Each operand comes back from its field: registers and bytes fill theirs, and well-formedness says that an address or
a row count fits its own. -/
theorem instrOfWord_encode (h : i.wf = true) : instrOfWord (encode i) = some i := by
  cases i with
  | cls | ret => rfl
  | jp nnn | call nnn | ldI nnn | jpV0 nnn =>
    have hfits : nnn < 4096 := by simpa [Instr.wf, addrFits, Nat.lt_succ_iff] using h
    simp [encode, instrOfWord, Nat.mod_eq_of_lt hfits]
  | drw x y n =>
    have hfits : n < 16 := by simpa [Instr.wf, rowsFit, Nat.lt_succ_iff] using h
    simp [encode, instrOfWord, Nat.mod_eq_of_lt hfits]
  | seImm | sneImm | ldImm | addImm | rnd => simp [encode, instrOfWord]
  | seReg | sneReg => simp [encode, instrOfWord]
  | ldReg | orReg | andReg | xorReg | addReg | subReg | shr | subn | shl =>
    simp [encode, instrOfWord, decodeFamily8]
  | skp | sknp => simp [encode, instrOfWord, decodeFamilyE]
  | ldVxDt | ldVxK | ldDtVx | ldStVx | addI | ldF | ldB | storeRegs | loadRegs =>
    simp [encode, instrOfWord, decodeFamilyF]

/-- Settles O5: the decoder reads back every field the encoder wrote. -/
theorem decodeOfEncode : Obligations.DecodeOfEncode :=
  fun _ hwf => decodeWord_eq_ok_iff.mpr (instrOfWord_encode hwf)

/-! A word with a known family, or a known family and low field, built again from its fields. -/

theorem wordAddr_of_op {op : BitVec 4} (hop : (fieldOp w).toNat = op.toNat) : wordAddr op (fieldNNN w) = w :=
  BitVec.eq_of_toNat_eq hop ▸ wordAddr_fields w

theorem wordImm_of_op {op : BitVec 4} (hop : (fieldOp w).toNat = op.toNat) :
    wordImm op (fieldX w) (fieldNN w) = w :=
  BitVec.eq_of_toNat_eq hop ▸ wordImm_fields w

theorem wordImm_of_op_nn {op : BitVec 4} {nn : Byte} (hop : (fieldOp w).toNat = op.toNat) (hnn : fieldNN w = nn) :
    wordImm op (fieldX w) nn = w :=
  hnn ▸ wordImm_of_op hop

theorem wordRegs_of_op {op : BitVec 4} (hop : (fieldOp w).toNat = op.toNat) :
    wordRegs op (fieldX w) (fieldY w) (fieldN w) = w :=
  BitVec.eq_of_toNat_eq hop ▸ wordRegs_fields w

theorem wordRegs_of_op_n {op n : BitVec 4} (hop : (fieldOp w).toNat = op.toNat) (hn : (fieldN w).toNat = n.toNat) :
    wordRegs op (fieldX w) (fieldY w) n = w :=
  BitVec.eq_of_toNat_eq hn ▸ wordRegs_of_op hop

theorem addrFits_fieldNNN (w : Word) : addrFits (fieldNNN w) = true :=
  decide_eq_true (Nat.le_of_lt_succ (BitVec.isLt _))

theorem rowsFit_fieldN (w : Word) : rowsFit (fieldN w).toNat = true :=
  decide_eq_true (Nat.le_of_lt_succ (BitVec.isLt _))

/-! Each family's instruction encodes to the word it was read from. -/

theorem encode_of_decodeFamily0 (h : decodeFamily0 w = some i) : i.wf = true ∧ encode i = w := by
  unfold decodeFamily0 at h
  split_ifs at h with hcls hret
  · cases h; exact ⟨rfl, hcls.symm⟩
  · cases h; exact ⟨rfl, hret.symm⟩

theorem encode_of_decodeFamily8 (hop : (fieldOp w).toNat = 0x8) (h : decodeFamily8 w = some i) :
    i.wf = true ∧ encode i = w := by
  unfold decodeFamily8 at h
  split at h <;> cases h
  all_goals next hn => exact ⟨rfl, wordRegs_of_op_n hop hn⟩

theorem encode_of_decodeFamilyE (hop : (fieldOp w).toNat = 0xE) (h : decodeFamilyE w = some i) :
    i.wf = true ∧ encode i = w := by
  unfold decodeFamilyE at h
  split_ifs at h <;> cases h
  all_goals next hnn => exact ⟨rfl, wordImm_of_op_nn hop hnn⟩

theorem encode_of_decodeFamilyF (hop : (fieldOp w).toNat = 0xF) (h : decodeFamilyF w = some i) :
    i.wf = true ∧ encode i = w := by
  unfold decodeFamilyF at h
  split_ifs at h <;> cases h
  all_goals next hnn => exact ⟨rfl, wordImm_of_op_nn hop hnn⟩

/-- Splitting on the family: its fields, together, are the whole word. -/
theorem encode_of_instrOfWord (h : instrOfWord w = some i) : i.wf = true ∧ encode i = w := by
  unfold instrOfWord at h
  split at h
  case h_1 => exact encode_of_decodeFamily0 h
  case h_2 hop | h_3 hop | h_11 hop | h_12 hop => cases h; exact ⟨addrFits_fieldNNN w, wordAddr_of_op hop⟩
  case h_4 hop | h_5 hop | h_7 hop | h_8 hop | h_13 hop => cases h; exact ⟨rfl, wordImm_of_op hop⟩
  case h_6 hop | h_10 hop =>
    split_ifs at h with hn
    cases h
    exact ⟨rfl, wordRegs_of_op_n hop (congrArg BitVec.toNat hn)⟩
  case h_9 hop => exact encode_of_decodeFamily8 hop h
  case h_14 hop =>
    cases h
    exact ⟨rowsFit_fieldN w, by simpa [encode] using wordRegs_of_op hop⟩
  case h_15 hop => exact encode_of_decodeFamilyE hop h
  case h_16 =>
    simp only [imp_false] at *
    have hlt : (fieldOp w).toNat < 16 := BitVec.isLt _
    have hop : (fieldOp w).toNat = 0xF := by omega
    exact encode_of_decodeFamilyF hop h

/-- Settles O6: splitting a word into its fields loses no bit, and every field fits its operand. -/
theorem encodeOfDecode : Obligations.EncodeOfDecode :=
  fun _ _ hdecode => encode_of_instrOfWord (decodeWord_eq_ok_iff.mp hdecode)

/-! ## The opcode table

A row's mask keeps whole fields, so a word of the row has the row's bits in each field kept. -/

section Mask

variable {m b : Word}

theorem extractLsb'_of_mask {start len : Nat} (hm : m.extractLsb' start len = BitVec.allOnes len)
    (h : w &&& m = b) : w.extractLsb' start len = b.extractLsb' start len := by
  have hand : b.extractLsb' start len = w.extractLsb' start len &&& m.extractLsb' start len := by
    ext k hk; simp [← h]
  rw [hand, hm, BitVec.and_allOnes]

theorem fieldOp_of_mask (hm : fieldOp m = 0xF) (h : w &&& m = b) : fieldOp w = BitVec.ofNat 4 (b.toNat / 4096) :=
  (extractLsb'_of_mask hm h).trans (BitVec.eq_of_toNat_eq (by simp [Nat.shiftRight_eq_div_pow]))

theorem fieldN_of_mask (hm : fieldN m = 0xF) (h : w &&& m = b) : fieldN w = BitVec.ofNat 4 b.toNat :=
  (extractLsb'_of_mask hm h).trans (BitVec.eq_of_toNat_eq (by simp))

theorem fieldNN_of_mask (hm : fieldNN m = 0xFF) (h : w &&& m = b) : fieldNN w = BitVec.ofNat 8 b.toNat :=
  (extractLsb'_of_mask hm h).trans (BitVec.eq_of_toNat_eq (by simp))

end Mask

/-- A word of the table decodes to an instruction of its row: the fields the row fixes select it. -/
theorem instrOfWord_of_matches (h : (tableRow i).matches w = true) :
    ∃ j, instrOfWord w = some j ∧ tableRow j = tableRow i := by
  have hbits : w &&& (tableRow i).mask = (tableRow i).bits := of_decide_eq_true h
  cases i with
  | cls | ret =>
    dsimp only [tableRow] at hbits
    rw [show (0xFFFF : Word) = BitVec.allOnes 16 from rfl, BitVec.and_allOnes] at hbits
    exact ⟨_, hbits ▸ rfl, rfl⟩
  | jp | call | ldI | jpV0 | seImm | sneImm | ldImm | addImm | rnd | drw =>
    dsimp only [tableRow] at hbits
    have hop := fieldOp_of_mask (by decide) hbits
    simp [instrOfWord, hop, tableRow]
  | seReg | sneReg =>
    dsimp only [tableRow] at hbits
    have hop := fieldOp_of_mask (by decide) hbits
    have hn := fieldN_of_mask (by decide) hbits
    simp [instrOfWord, hop, hn, tableRow]
  | ldReg | orReg | andReg | xorReg | addReg | subReg | shr | subn | shl =>
    dsimp only [tableRow] at hbits
    have hop := fieldOp_of_mask (by decide) hbits
    have hn := fieldN_of_mask (by decide) hbits
    simp [instrOfWord, decodeFamily8, hop, hn, tableRow]
  | skp | sknp =>
    dsimp only [tableRow] at hbits
    have hop := fieldOp_of_mask (by decide) hbits
    have hnn := fieldNN_of_mask (by decide) hbits
    simp [instrOfWord, decodeFamilyE, hop, hnn, tableRow]
  | ldVxDt | ldVxK | ldDtVx | ldStVx | addI | ldF | ldB | storeRegs | loadRegs =>
    dsimp only [tableRow] at hbits
    have hop := fieldOp_of_mask (by decide) hbits
    have hnn := fieldNN_of_mask (by decide) hbits
    simp [instrOfWord, decodeFamilyF, hop, hnn, tableRow]

theorem tableRow_mem_opcodeTable (i : Instr) : tableRow i ∈ opcodeTable := by
  cases i <;> simp [opcodeTable, rowSamples, tableRow]

/-- An encoding has the fixed bits of its instruction's row, one `Laws.OnRow` lemma per constructor. -/
theorem tableRow_matches_encode (i : Instr) : (tableRow i).matches (encode i) = true := by
  cases i with
  | cls => exact OnRow.cls
  | ret => exact OnRow.ret
  | jp => exact OnRow.jp _
  | call => exact OnRow.call _
  | seImm => exact OnRow.seImm _ _
  | sneImm => exact OnRow.sneImm _ _
  | seReg => exact OnRow.seReg _ _
  | ldImm => exact OnRow.ldImm _ _
  | addImm => exact OnRow.addImm _ _
  | ldReg => exact OnRow.ldReg _ _
  | orReg => exact OnRow.orReg _ _
  | andReg => exact OnRow.andReg _ _
  | xorReg => exact OnRow.xorReg _ _
  | addReg => exact OnRow.addReg _ _
  | subReg => exact OnRow.subReg _ _
  | shr => exact OnRow.shr _ _
  | subn => exact OnRow.subn _ _
  | shl => exact OnRow.shl _ _
  | sneReg => exact OnRow.sneReg _ _
  | ldI => exact OnRow.ldI _
  | jpV0 => exact OnRow.jpV0 _
  | rnd => exact OnRow.rnd _ _
  | drw => exact OnRow.drw _ _ _
  | skp => exact OnRow.skp _
  | sknp => exact OnRow.sknp _
  | ldVxDt => exact OnRow.ldVxDt _
  | ldVxK => exact OnRow.ldVxK _
  | ldDtVx => exact OnRow.ldDtVx _
  | ldStVx => exact OnRow.ldStVx _
  | addI => exact OnRow.addI _
  | ldF => exact OnRow.ldF _
  | ldB => exact OnRow.ldB _
  | storeRegs => exact OnRow.storeRegs _
  | loadRegs => exact OnRow.loadRegs _

/-- A decoded word is on the row of its instruction: it is that instruction's encoding. -/
theorem matches_of_decodeWord (h : decodeWord w = .ok i) : (tableRow i).matches w = true := by
  obtain ⟨-, henc⟩ := encodeOfDecode w i h
  simpa [henc] using tableRow_matches_encode i

theorem decodeWord_of_matches {r : OpcodeRow} (hr : r ∈ opcodeTable) (h : r.matches w = true) :
    ∃ i, decodeWord w = .ok i ∧ tableRow i = r := by
  obtain ⟨i, -, rfl⟩ := List.mem_map.mp hr
  obtain ⟨j, hj, hrow⟩ := instrOfWord_of_matches h
  exact ⟨j, decodeWord_eq_ok_iff.mpr hj, hrow⟩

/-- Settles O7: the fields a row fixes select its instruction, and a decoded word is its instruction's encoding, which
is on the row. -/
theorem decodeFollowsOpcodeTable : Obligations.DecodeFollowsOpcodeTable :=
  ⟨rfl, fun _ i h => ⟨tableRow_mem_opcodeTable i, matches_of_decodeWord h⟩, fun _ _ hr h => decodeWord_of_matches hr h⟩

/-- Settles O8: a word on two rows decodes to an instruction of each, and decoding is a function. -/
theorem opcodeRowsAreDisjoint : Obligations.OpcodeRowsAreDisjoint := by
  intro w r q hr hq hwr hwq
  obtain ⟨i, hi, rfl⟩ := decodeWord_of_matches hr hwr
  obtain ⟨j, hj, rfl⟩ := decodeWord_of_matches hq hwq
  cases hi.symm.trans hj
  rfl

/-! ## Illegal words (R87) -/

theorem decodeFamily0_eq_none_iff : decodeFamily0 w = none ↔ w ≠ 0x00E0 ∧ w ≠ 0x00EE := by
  unfold decodeFamily0
  split_ifs <;> simp_all

theorem decodeFamily8_eq_none_iff :
    decodeFamily8 w = none ↔ fieldN w ∈ ([8, 9, 0xA, 0xB, 0xC, 0xD, 0xF] : List (BitVec 4)) := by
  have hrest : ∀ n : BitVec 4, n.toNat ≠ 0 ∧ n.toNat ≠ 1 ∧ n.toNat ≠ 2 ∧ n.toNat ≠ 3 ∧ n.toNat ≠ 4 ∧ n.toNat ≠ 5 ∧
    n.toNat ≠ 6 ∧ n.toNat ≠ 7 ∧ n.toNat ≠ 14 ↔ n ∈ ([8, 9, 0xA, 0xB, 0xC, 0xD, 0xF] : List (BitVec 4)) := by decide
  rw [← hrest]
  unfold decodeFamily8
  split <;> simp_all

theorem decodeFamilyE_eq_none_iff : decodeFamilyE w = none ↔ fieldNN w ∉ ([0x9E, 0xA1] : List Byte) := by
  unfold decodeFamilyE
  split_ifs <;> simp_all

theorem decodeFamilyF_eq_none_iff : decodeFamilyF w = none ↔
    fieldNN w ∉ ([0x07, 0x0A, 0x15, 0x18, 0x1E, 0x29, 0x33, 0x55, 0x65] : List Byte) := by
  unfold decodeFamilyF
  split_ifs <;> simp_all

theorem instrOfWord_eq_none_iff : instrOfWord w = none ↔
    (fieldOp w = 0 ∧ decodeFamily0 w = none) ∨ (fieldOp w = 5 ∧ fieldN w ≠ 0) ∨
      (fieldOp w = 8 ∧ decodeFamily8 w = none) ∨ (fieldOp w = 9 ∧ fieldN w ≠ 0) ∨
      (fieldOp w = 0xE ∧ decodeFamilyE w = none) ∨ (fieldOp w = 0xF ∧ decodeFamilyF w = none) := by
  unfold instrOfWord
  simp only [← BitVec.toNat_inj (x := fieldOp w)]
  split
  case h_16 =>
    simp only [imp_false] at *
    have hlt : (fieldOp w).toNat < 16 := BitVec.isLt _
    have hop : (fieldOp w).toNat = 0xF := by omega
    simp [hop]
  all_goals simp_all

/-- Settles O9: the six families that do not decode every word, each by its own selector. -/
theorem illegalWordsAreRejected : Obligations.IllegalWordsAreRejected := by
  intro w
  rw [decodeWord_eq_error_iff, instrOfWord_eq_none_iff, decodeFamily0_eq_none_iff, decodeFamily8_eq_none_iff,
    decodeFamilyE_eq_none_iff, decodeFamilyF_eq_none_iff]

/-- Settles O10: each of the six words is an encoding, which O5 decodes; the seventh is in family 8 with the low nibble
8, which O9 lists. -/
theorem writtenWordsDecode : Obligations.WrittenWordsDecode :=
  ⟨decodeOfEncode (.call 0xABC) rfl, decodeOfEncode (.seImm 0xA 0x42) rfl, decodeOfEncode (.subReg 6 7) rfl,
    decodeOfEncode (.drw 1 2 5) rfl, decodeOfEncode (.loadRegs 0xF) rfl, decodeOfEncode (.ldVxK 5) rfl,
    (illegalWordsAreRejected 0x8128).mpr (by decide)⟩

end Sys2Proof

/-! # What a step can do

SUPPORT. The parts no instruction touches, the fatal conditions an instruction can raise, and the two ways a step can
end: HALTED, with a well-formed record, or RUNNING, after its instruction and phase 5. -/

namespace Sys2Proof.Machine

variable {s t u : State} {w : Word} {i : Instr} {p : Part}

/-! ## Frames of the phases -/

theorem frame_raise {c : Condition} {a : Option Nat} : Frame [.run, .faultRecord] s (s.raise c a) := by
  intro p hp; cases p <;> simp_all [Part.same]

theorem haltedBy_raise (c : Condition) (a : Option Nat) : HaltedBy c a s (s.raise c a) :=
  ⟨rfl, rfl, frame_raise⟩

/-- The parts phase 1 and the fetch change. -/
abbrev startParts : List Part :=
  [.delay, .sound, .advanced, .render, .clear, .beep, .stepInputs, .word, .schedule]

theorem frame_execState : Frame startParts s (execState s w) := by
  intro p hp; cases p <;> simp_all [Part.same, execState]

theorem frame_beginStep : Frame startParts s s.beginStep := by
  intro p hp; cases p <;> simp_all [Part.same]

theorem frame_setWord : Frame [.word] s (s.setWord w) := by
  intro p hp; cases p <;> simp_all [Part.same]

theorem frame_endStep : Frame [.pc] s s.endStep := by
  rw [State.endStep_eq]
  intro p hp; cases p <;> simp_all [Part.same, State.reg, State.byteAt]

/-! ## Totality (R100) -/

/-- Every instruction answers a next state. -/
theorem exec_next (i : Instr) (s : State) : ∃ t, exec i s = .next t := by
  cases i with
  | ret => simp only [exec, execRet]; split <;> exact ⟨_, rfl⟩
  | call => simp only [exec, execCall]; split <;> exact ⟨_, rfl⟩
  | ldB | storeRegs | loadRegs | drw =>
    simp only [exec, execLdB, execStoreRegs, execLoadRegs, execDrw]; split <;> exact ⟨_, rfl⟩
  | _ => exact ⟨_, rfl⟩

theorem step_of_fetch_error {a : Nat} (hr : s.run = .running) (hf : s.fetch = .error a) :
    step s = .next (s.beginStep.raise .memoryOutOfBounds (some a)) := by
  simp [step, hr, hf]

theorem step_of_decode_error {e : DecodeError} (hr : s.run = .running) (hf : s.fetch = .ok w)
    (hd : decodeWord w = .error e) : step s = .next ((execState s w).raise .unknownOpcode none) := by
  simp [step, hr, hf, hd, execState]

theorem step_of_halted (hr : s.run = .halted) : step s = .fault .stepWhileHalted := by
  simp [step, hr]

/-- Settles O12: an instruction always answers, and so does a step at the fetch, at decode and after its instruction. -/
theorem stepDefinedExactlyWhenRunning : Obligations.StepDefinedExactlyWhenRunning := by
  refine ⟨exec_next, fun s => ⟨fun hr => ?_, step_of_halted⟩⟩
  cases hf : s.fetch with
  | error a => exact ⟨_, step_of_fetch_error hr hf⟩
  | ok w =>
    cases hd : decodeWord w with
    | error e => exact ⟨_, step_of_decode_error hr hf hd⟩
    | ok i =>
      obtain ⟨t, he⟩ := exec_next i (execState s w)
      exact ⟨_, step_of_exec s w i t hr hf hd he⟩

/-! ## Parts no instruction changes -/

/-- A part outside an instruction's own, the run status and the record stays, whether the instruction halts or not. -/
theorem exec_same (h : exec i s = .next t) (hown : p ∉ mayChange i) (hrun : p ∉ [Part.run, .faultRecord]) :
    p.same s t := by
  obtain ⟨c, a, rfl⟩ | hframe := exec_raises_or_frames h
  · exact frame_raise p hrun
  · exact hframe p hown

/-- A part outside every instruction's own is, after a step, as phase 1 left it. -/
theorem step_same (h : step s = .next t) (hown : ∀ i, p ∉ mayChange i)
    (hengine : p ∉ [Part.run, .faultRecord, .word, .pc]) : p.same s.beginStep t := by
  have hrun : p ∉ [Part.run, .faultRecord] := by simp_all
  obtain ⟨-, ⟨a, -, rfl⟩ | ⟨w, e, -, -, rfl⟩ | ⟨w, i, u, -, -, he, rfl⟩⟩ := step_cases s t h
  · exact frame_raise p hrun
  · exact p.same_trans (frame_setWord p (by simp_all)) (frame_raise p hrun)
  · have hexec := exec_same he (hown i) hrun
    have hend : p.same u u.endStep := frame_endStep p (by simp_all)
    exact p.same_trans (frame_setWord p (by simp_all)) (p.same_trans hexec hend)

/-- Settles O21: the schedule, the sampled inputs and the parameters are no instruction's to change. -/
theorem stepConsumesOneInput : Obligations.StepConsumesOneInput := by
  intro s t h
  have hschedule := step_same (p := .schedule) h (fun i => by cases i <;> simp [mayChange]) (by simp)
  have hinputs := step_same (p := .stepInputs) h (fun i => by cases i <;> simp [mayChange]) (by simp)
  have hcfg := step_same (p := .parameters) h (fun i => by cases i <;> simp [mayChange]) (by simp)
  exact ⟨hschedule.1, hschedule.2, hcfg, hinputs.1, hinputs.2⟩

/-! ## Steps that end HALTED -/

theorem recordWf_of_firstOutOfRange {a len b : Nat} (hb : firstOutOfRange a len = some b) :
    RecordWf s.pc ⟨.memoryOutOfBounds, s.pc, s.sig.word, some b⟩ := by
  obtain ⟨-, -, rfl⟩ := (firstOutOfRange_eq_some a len b).mp hb
  refine ⟨rfl, by simp, by simp, fun c hc => ?_⟩
  cases hc
  split <;> omega

/-- An instruction that halts the machine takes a fatal condition of a step, with an address that does not exist exactly
for MemoryOutOfBounds (R251, R253). -/
theorem exec_halted (h : exec i s = .next t) (hs : s.run = .running) (ht : t.run = .halted) :
    ∃ c a, t = s.raise c a ∧ RecordWf s.pc ⟨c, s.pc, s.sig.word, a⟩ := by
  cases i with
  | ret =>
    simp only [exec, execRet] at h
    split at h <;> cases h
    · exact ⟨_, _, rfl, by simp [RecordWf]⟩
    · next hpop => cases ht.symm.trans ((frame_pop? hpop .run (by simp)).trans hs)
  | call =>
    simp only [exec, execCall] at h
    split at h <;> cases h
    · exact ⟨_, _, rfl, by simp [RecordWf]⟩
    · next hpush => cases ht.symm.trans ((frame_push? hpush .run (by simp)).trans hs)
  | skp | sknp =>
    cases h
    split at ht
    · cases hs.symm.trans ht
    · next hle => exact ⟨_, _, if_neg hle, by simp [RecordWf]⟩
  | ldVxK =>
    cases h
    split at ht <;> cases hs.symm.trans ht
  | ldB | storeRegs | loadRegs | drw =>
    simp only [exec, execLdB, execStoreRegs, execLoadRegs, execDrw] at h
    split at h <;> cases h
    · next hb => exact ⟨_, _, rfl, recordWf_of_firstOutOfRange hb⟩
    · cases hs.symm.trans ht
  | _ => cases h; cases hs.symm.trans ht

theorem fetch_error_ge {a : Nat} (h : s.fetch = .error a) : 0x1000 ≤ a := by
  by_cases hpc : s.pc.toNat ≤ 0xFFE
  · rw [State.fetch_ok s hpc] at h; cases h
  · rw [State.fetch_error s (by omega)] at h
    cases h
    split <;> omega

/-- A step that ends HALTED raised its condition at the fetch, or later with the word fetched, and changed nothing after
phase 1 and the fetch (R254). -/
theorem step_halted (h : step s = .next t) (ht : t.run = .halted) :
    (∃ a, s.fetch = .error a ∧ 0x1000 ≤ a ∧ t = s.beginStep.raise .memoryOutOfBounds (some a)) ∨
      ∃ w c a, s.fetch = .ok w ∧ t = (execState s w).raise c a ∧ RecordWf s.pc ⟨c, s.pc, some w, a⟩ := by
  obtain ⟨hr, ⟨a, hf, rfl⟩ | ⟨w, e, hf, hd, rfl⟩ | ⟨w, i, u, hf, hd, he, rfl⟩⟩ := step_cases s t h
  · exact .inl ⟨a, hf, fetch_error_ge hf, rfl⟩
  · exact .inr ⟨w, _, _, hf, rfl, by simp [RecordWf]⟩
  · rw [State.endStep_run] at ht
    obtain ⟨c, a, rfl, hrecord⟩ := exec_halted he hr ht
    exact .inr ⟨w, c, a, hf, State.endStep_of_halted _ rfl, hrecord⟩

/-- Settles O15: the state is that after phase 1 and the fetch, but for the run status and a well-formed record. -/
theorem faultsArePrecise : Obligations.FaultsArePrecise := by
  intro s t h ht
  obtain ⟨a, hf, ha, rfl⟩ | ⟨w, c, a, hf, rfl, hrecord⟩ := step_halted h ht
  · refine ⟨(frame_beginStep.trans frame_raise).mono (by simp), tick_toNat _, tick_toNat _, rfl, rfl, rfl,
      _, rfl, ?_, ?_, fun _ _ => ⟨rfl, rfl⟩⟩
    · simpa [RecordWf] using ha
    · simp [hf]
  · refine ⟨(frame_execState.trans frame_raise).mono (by simp), tick_toNat _, tick_toNat _, rfl, rfl, rfl,
      _, rfl, hrecord, ?_, ?_⟩
    · intro w' hw'
      cases hf.symm.trans hw'
      rfl
    · simp [hf]

/-! ## Steps that end RUNNING -/

/-- A step that ends RUNNING ran its instruction to completion, then phase 5. -/
theorem step_running (h : step s = .next t) (ht : t.run = .running) :
    ∃ w i u, Runs s w i ∧ exec i (execState s w) = .next u ∧ Frame (mayChange i) (execState s w) u ∧ t = u.endStep := by
  obtain ⟨hr, ⟨a, -, rfl⟩ | ⟨w, e, -, -, rfl⟩ | ⟨w, i, u, hf, hd, he, rfl⟩⟩ := step_cases s t h
  · cases ht
  · cases ht
  · rw [State.endStep_run] at ht
    exact ⟨w, i, u, ⟨hr, hf, hd⟩, he, exec_frame_of_running he ht, rfl⟩

/-- Settles O11: the phases of a step that decodes its word, with what phase 1 and the fetch change. -/
theorem stepRunsDecodedInstruction : Obligations.StepRunsDecodedInstruction := by
  rintro s w i ⟨hr, hf, hd⟩
  obtain ⟨t, he⟩ := exec_next i (execState s w)
  have hbeep : decide (tick s.st = 1) = decide (s.st.toNat = 2) := by
    simp [← BitVec.toNat_inj, tick_toNat]
  refine ⟨t, he, step_of_exec s w i t hr hf hd he, tick_toNat _, tick_toNat _, ?_, frame_execState⟩
  rw [← hbeep]
  rfl

/-- Settles O13: a fetch of two existing bytes answers their word, and any other raises MemoryOutOfBounds before a word
is known. -/
theorem fetchReadsTwoBytesOrHalts : Obligations.FetchReadsTwoBytesOrHalts := by
  refine fun s => ⟨fun hpc => ?_, fun hpc hr => ?_⟩
  · exact ⟨_, State.fetch_ok s (by omega), wordOfBytes_toNat _ _⟩
  · exact ⟨_, step_of_fetch_error hr (State.fetch_error s (by omega)), haltedBy_raise _ _, rfl⟩

/-- Settles O14: a word on no row does not decode (O7), and the step then raises UnknownOpcode. -/
theorem unknownOpcodeHalts : Obligations.UnknownOpcodeHalts := by
  intro s w hr hf hrows
  cases hd : decodeWord w with
  | ok i =>
    have hno := hrows (tableRow i) (tableRow_mem_opcodeTable i)
    cases hno.symm.trans (matches_of_decodeWord hd)
  | error e => exact ⟨_, step_of_decode_error hr hf hd, haltedBy_raise _ _, rfl⟩

/-! ## Output flags (R47) -/

theorem outputPort_of_running (hr : s.run = .running) :
    s.outputPort = some ⟨s.sig.render, s.sig.clear, s.sig.beep⟩ := by
  simp [State.outputPort, hr]

/-- Settles O17: no instruction changes the flag phase 1 samples. -/
theorem beepExactlyWhenSoundTimerReachesOne : Obligations.BeepExactlyWhenSoundTimerReachesOne := by
  intro s t h hr
  have hbeep : t.sig.beep = decide (tick s.st = 1) :=
    step_same (p := .beep) h (fun i => by cases i <;> simp [mayChange]) (by simp)
  refine ⟨_, outputPort_of_running hr, ?_⟩
  rw [hbeep, decide_eq_true_iff, ← BitVec.toNat_inj, tick_toNat]
  rfl

/-- `DXYN` that completes sets `should_render`. -/
theorem exec_drw_render {x y : RegIdx} {n : Nat} (h : exec (.drw x y n) s = .next t) (hr : t.run = .running) :
    t.sig.render = true := by
  simp only [exec, execDrw] at h
  split at h <;> cases h
  · cases hr
  · rfl

/-- Settles O18: `DXYN` and `00E0` set their flags, and the frame of every other instruction keeps both at 0. -/
theorem renderAndClearReportTheirInstruction : Obligations.RenderAndClearReportTheirInstruction := by
  intro s t h
  refine ⟨fun w i hruns hr => ?_, fun hr => by simp [State.outputPort, hr]⟩
  obtain ⟨u, he, rfl⟩ := step_of_runs hruns h
  refine ⟨_, outputPort_of_running hr, ?_⟩
  rw [State.endStep_run] at hr
  have hframe := exec_frame_of_running he hr
  have hrender : (¬ ∃ x y n, i = .drw x y n) → u.sig.render = false :=
    fun hi => hframe .render (by cases i <;> simp_all [mayChange])
  have hclear : i ≠ .cls → u.sig.clear = false :=
    fun hi => hframe .clear (by cases i <;> simp_all [mayChange])
  rw [State.endStep_sig]
  constructor
  · refine ⟨fun hset => ?_, ?_⟩
    · by_contra hi
      cases (hrender hi).symm.trans hset
    · rintro ⟨x, y, n, rfl⟩
      exact exec_drw_render he hr
  · refine ⟨fun hset => ?_, ?_⟩
    · by_contra hi
      cases (hclear hi).symm.trans hset
    · rintro rfl
      cases he
      rfl

/-- Settles O19: phase 1 overwrites every signal before anything reads one. -/
theorem stepIgnoresEarlierSignals : Obligations.StepIgnoresEarlierSignals := by
  intro s g
  have hbegin : ({ s with sig := g } : State).beginStep = s.beginStep := rfl
  simp only [step, hbegin]

end Sys2Proof.Machine

/-! # Calls, returns and computed jumps -/

namespace Sys2Proof.Machine

variable {s t : State} {nnn : Nat}

theorem exec_call_of_push? (h : s.push? (s.pc + 2) = some t) :
    exec (.call nnn) s = .next (t.jump (addrOperand nnn)) := by
  simp only [exec, execCall, h]

theorem exec_call_of_full (h : s.sp.val = 16) : exec (.call nnn) s = .next (s.raise .stackOverflow none) := by
  simp only [exec, execCall, State.push?_full s _ h]

theorem exec_ret_of_pop? {a : Word} (h : s.pop? = some (a, t)) : exec .ret s = .next (t.jump a) := by
  simp only [exec, execRet, h]

theorem exec_ret_of_empty (h : s.sp.val = 0) : exec .ret s = .next (s.raise .stackUnderflow none) := by
  simp only [exec, execRet, State.pop?_empty s h]

/-- Settles O31: below 16 addresses `2NNN` is one push, then a jump; at 16 it raises StackOverflow. -/
theorem callPushesReturnAddress : Obligations.CallPushesReturnAddress := by
  intro nnn s hnnn
  have hle : s.sp.val ≤ 16 := Nat.le_of_lt_succ s.sp.isLt
  obtain hlt | hfull := Nat.lt_or_eq_of_le hle
  · have hpush := State.push?_some s (s.pc + 2) hlt
    refine ⟨_, exec_call_of_push? hpush, fun _ => ?_, fun hfull => by omega⟩
    refine ⟨addrOperand_toNat hnnn, rfl, rfl, fun k => ?_, ((frame_push? hpush).trans frame_jump).mono (by simp)⟩
    simp [Vector.getElem_set, eq_comm]
  · exact ⟨_, exec_call_of_full hfull, fun hlt => by omega, fun _ => haltedBy_raise _ _⟩

/-- Settles O32: on a stack that holds an address `00EE` is one pop, then a jump; on an empty one it raises
StackUnderflow. -/
theorem returnPopsTheTop : Obligations.ReturnPopsTheTop := by
  intro s
  obtain hempty | hpos := Nat.eq_zero_or_pos s.sp.val
  · exact ⟨_, exec_ret_of_empty hempty, fun k hk => by omega, fun _ => haltedBy_raise _ _⟩
  · obtain ⟨k, hk⟩ : ∃ k : Fin 16, s.sp.val = k.val + 1 := ⟨⟨s.sp.val - 1, by omega⟩, by simp; omega⟩
    have hpop := State.pop?_some s k hk
    refine ⟨_, exec_ret_of_pop? hpop, fun j hj => ?_, fun h0 => by omega⟩
    obtain rfl : j = k := Fin.ext (by omega)
    exact ⟨rfl, rfl, rfl, ((frame_pop? hpop).trans frame_jump).mono (by simp)⟩

/-- Settles O33: the return pops what the call pushed (`State.pop?_push?`). -/
theorem returnAfterCallResumes : Obligations.ReturnAfterCallResumes := by
  intro nnn s t u hlt hcall hsp hentry
  have hpush := State.push?_some s (s.pc + 2) hlt
  cases (exec_call_of_push? hpush).symm.trans hcall
  have hpop := State.pop?_push? s (s.pc + 2) _ u hlt hpush hsp hentry
  exact ⟨_, exec_ret_of_pop? hpop, rfl, rfl⟩

/-- A byte and a 12-bit address sum to at most 0x10FE, so the target loses no bit as a word. -/
theorem offsetTarget_toNat (hnnn : nnn ≤ 0xFFF) : (offsetTarget s nnn).toNat = (s.reg 0).toNat + nnn := by
  have hbyte : (s.reg 0).toNat < 256 := (s.reg 0).isLt
  rw [offsetTarget, BitVec.toNat_ofNat, Nat.mod_eq_of_lt (by omega)]

/-- Settles O30: `BNNN` is one `State.jump` to a sum that fits a word. -/
theorem offsetJumpAddsV0 : Obligations.OffsetJumpAddsV0 :=
  fun _ s hnnn => ⟨_, rfl, offsetTarget_toNat hnnn, State.jump_sig_advanced s _, frame_jump⟩

end Sys2Proof.Machine

/-! # The invariant -/

namespace Sys2Proof.Machine

variable {s t : State} {w : Word} {i : Instr}

/-! ## Load and reset -/

/-- A load that succeeds is one of at most 3584 bytes, and leaves the post-load state (R280). -/
theorem load_eq_none_iff {p : List Byte} : s.load p = (t, none) ↔ p.length ≤ 3584 ∧ t = s.loaded p := by
  unfold State.load
  split_ifs with hp <;> simp [hp, eq_comm]

/-- Every address of the program exists. -/
theorem loaded_mem_wf {p : List Byte} (hp : p.length ≤ 3584) :
    Memory.wf (s.loaded p).cfg (s.loaded p).mem = true :=
  Memory.writeBytes_wf s.cfg p [] 0x200 (by omega) rfl

/-- Settles O4: a load writes existing addresses of an empty memory, and empties the stack. -/
theorem loadEstablishesInvariant : Obligations.LoadEstablishesInvariant := by
  intro s t p h
  obtain ⟨hp, rfl⟩ := load_eq_none_iff.mp h
  exact
    { mem_wf := loaded_mem_wf hp
      pc_le := show (0x200 : Word).toNat ≤ 0x10FE by decide
      stack_le := fun k hk => absurd hk (Nat.not_lt_zero _)
      running_no_fault := fun _ => rfl
      record_wf := nofun }

/-- Settles O2: the reset state is a load's, so O4 gives the invariant. -/
theorem resetIsTheEmptyLoad : Obligations.ResetIsTheEmptyLoad :=
  ⟨rfl, loadEstablishesInvariant State.constructed State.reset [] rfl, step_of_halted rfl⟩

/-- Settles O3: the size is checked before anything is written (R283). -/
theorem oversizedLoadChangesNothing : Obligations.OversizedLoadChangesNothing :=
  fun _ _ hp => ⟨if_neg (by omega), rfl⟩

theorem loaded_byteAt_inside {p : List Byte} (hp : p.length ≤ 3584) {k : Nat} (hk : k < p.length) :
    (s.loaded p).byteAt (0x200 + k) = p[k] :=
  Memory.read_writeBytes_inside s.cfg p [] 0x200 k (by omega) rfl hk

theorem loaded_byteAt_outside {p : List Byte} {a : Nat} (ha : a < 0x200 ∨ 0x200 + p.length ≤ a) :
    (s.loaded p).byteAt a = initialByte s.cfg a :=
  Memory.read_writeBytes_outside s.cfg p [] 0x200 a ha

theorem loaded_zero {p : List Byte} (hc : s.cfg.resetRegs = .zero) :
    (s.loaded p).v = Vector.replicate 16 0 ∧ (s.loaded p).i = 0 ∧ (s.loaded p).stack = Vector.replicate 16 0 := by
  simp [State.loaded, resetV, resetI, resetStack, hc]

/-- Settles O1: the program is one run of written bytes, outside which memory reads as an unlisted address. -/
theorem loadLeavesPostLoadState : Obligations.LoadLeavesPostLoadState := by
  intro s p hp
  refine ⟨s.loaded p, load_eq_none_iff.mpr ⟨hp, rfl⟩, rfl, rfl, rfl, rfl, rfl, rfl, Display.pixel_blank, fun hc => ?_,
    fun k hk => loaded_byteAt_inside hp hk, fun a ha => ?_, fun a ha hout => ?_, rfl⟩
  · obtain ⟨hv, hi, hstack⟩ := loaded_zero (p := p) hc
    exact ⟨fun r => by simp [State.reg, hv], hi, fun k => by simp [hstack]⟩
  · rw [loaded_byteAt_outside (by omega), initialByte, if_pos ha]
  · rw [loaded_byteAt_outside hout, initialByte, if_neg (by omega)]

/-! ## Steps -/

/-- An instruction stores a block of existing addresses, or leaves memory as it is. -/
theorem exec_mem (h : exec i s = .next t) : t.mem = s.mem ∨
    ∃ a bs, a + bs.length ≤ 0x1000 ∧ t.mem = Memory.writeBytes s.cfg s.mem a bs := by
  cases i with
  | ldB | storeRegs =>
    simp only [exec, execLdB, execStoreRegs] at h
    split at h <;> cases h
    · exact .inl rfl
    · next hin =>
      rw [firstOutOfRange_eq_none] at hin
      exact .inr ⟨_, _, by simp_all [bcdDigits, regBlock_length], rfl⟩
  | loadRegs | drw =>
    simp only [exec, execLoadRegs, execDrw] at h
    split at h <;> cases h <;> exact .inl rfl
  | ret =>
    simp only [exec, execRet, State.pop?] at h
    split_ifs at h <;> cases h <;> exact .inl rfl
  | call =>
    simp only [exec, execCall, State.push?] at h
    split_ifs at h <;> cases h <;> exact .inl rfl
  | skp | sknp => cases h; split <;> exact .inl rfl
  | ldVxK => cases h; split <;> exact .inl rfl
  | _ => cases h; exact .inl rfl

theorem exec_mem_wf (h : exec i s = .next t) (hs : Memory.wf s.cfg s.mem = true) :
    Memory.wf t.cfg t.mem = true := by
  have hcfg : t.cfg = s.cfg := exec_same (p := .parameters) h (by cases i <;> simp [mayChange]) (by simp)
  rw [hcfg]
  obtain hmem | ⟨a, bs, hfits, hmem⟩ := exec_mem h
  · rwa [hmem]
  · rw [hmem]
    exact Memory.writeBytes_wf s.cfg bs s.mem a hfits hs

/-- The live return addresses are words a call after a fetch can push (R27). -/
def StackLe (s : State) : Prop := ∀ k : Fin 16, k.val < s.sp.val → s.stack[k.val].toNat ≤ 0x1000

theorem stackLe_push? {a : Word} (h : s.push? a = some t) (ha : a.toNat ≤ 0x1000) (hs : StackLe s) : StackLe t := by
  unfold State.push? at h
  split at h <;> cases h
  intro k hk
  simp only [Vector.getElem_set]
  split
  · exact ha
  · next hne => exact hs k (by simp at hk; omega)

theorem stackLe_pop? {a : Word} (h : s.pop? = some (a, t)) (hs : StackLe s) : a.toNat ≤ 0x1000 ∧ StackLe t := by
  unfold State.pop? at h
  split at h <;> cases h
  next hpos =>
    refine ⟨hs ⟨s.sp.val - 1, by omega⟩ (by simp; omega), fun k hk => hs k ?_⟩
    simp at hk
    omega

theorem exec_stackLe (h : exec i s = .next t) (hpc : s.pc.toNat ≤ 0xFFE) (hs : StackLe s) : StackLe t := by
  by_cases hi : i = .ret ∨ ∃ nnn, i = .call nnn
  · obtain rfl | ⟨nnn, rfl⟩ := hi
    · simp only [exec, execRet] at h
      split at h <;> cases h
      · exact hs
      · next hpop => exact (stackLe_pop? hpop hs).2
    · simp only [exec, execCall] at h
      split at h <;> cases h
      · exact hs
      · next hpush =>
        have hreturn : (s.pc + 2).toNat ≤ 0x1000 := by simp; omega
        have hpushed := stackLe_push? hpush hreturn hs
        exact hpushed
  · have hstack : t.stack = s.stack := exec_same (p := .stack) h (by cases i <;> simp_all [mayChange]) (by simp)
    have hsp : t.sp = s.sp := exec_same (p := .depth) h (by cases i <;> simp_all [mayChange]) (by simp)
    simpa [StackLe, hstack, hsp] using hs

/-- Where an instruction that sets `pc` itself can go: a skip to 0x1002, a 12-bit address, a live return address, or the
sum of a byte and a 12-bit address, which is the largest (R27). -/
theorem exec_pc_le (h : exec i s = .next t) (hwf : i.wf = true) (hset : setsPc i = true) (hk : ∀ x, i ≠ .ldVxK x)
    (hr : t.run = .running) (hpc : s.pc.toNat ≤ 0xFFE) (hs : StackLe s) : t.pc.toNat ≤ 0x10FE := by
  have hskip (c : Bool) : (s.skipIf c).pc.toNat ≤ 0x10FE := by
    cases c <;> simp <;> omega
  cases i with
  | seImm | sneImm | seReg | sneReg => cases h; exact hskip _
  | skp | sknp =>
    cases h
    split at hr
    · next hle => rw [if_pos hle]; exact hskip _
    · cases hr
  | jp nnn =>
    have hnnn : nnn ≤ 0xFFF := of_decide_eq_true hwf
    cases h
    simp only [State.jump_pc, addrOperand_toNat hnnn]
    omega
  | jpV0 nnn =>
    have hnnn : nnn ≤ 0xFFF := of_decide_eq_true hwf
    have hbyte : (s.reg 0).toNat < 256 := (s.reg 0).isLt
    cases h
    simp only [State.jump_pc, offsetTarget_toNat hnnn]
    omega
  | ret =>
    simp only [exec, execRet] at h
    split at h <;> cases h
    · cases hr
    · next hpop => exact (stackLe_pop? hpop hs).1.trans (by omega)
  | call nnn =>
    have hnnn : nnn ≤ 0xFFF := of_decide_eq_true hwf
    simp only [exec, execCall] at h
    split at h <;> cases h
    · cases hr
    · simp only [State.jump_pc, addrOperand_toNat hnnn]
      omega
  | ldVxK x => exact absurd rfl (hk x)
  | _ => cases hset

/-- A completed instruction and its phase 5 leave `pc` in range, whichever of the two moved it. -/
theorem endStep_pc_le {u : State} (he : exec i (execState s w) = .next u) (hwf : i.wf = true)
    (hr : u.run = .running) (hpc : s.pc.toNat ≤ 0xFFE) (hs : StackLe s) : u.endStep.pc.toNat ≤ 0x10FE := by
  have hnext : (s.pc + 2).toNat ≤ 0x10FE := by simp; omega
  cases hset : setsPc i with
  | false => rwa [(endStep_pc_of_not_setsPc he hr hset).2]
  | true =>
    by_cases hk : ∃ x, i = .ldVxK x
    · obtain ⟨x, rfl⟩ := hk
      rw [(endStep_pc_of_ldVxK he hr).2]
      split <;> omega
    · have hk : ∀ x, i ≠ .ldVxK x := fun x hx => hk ⟨x, hx⟩
      rw [State.endStep_of_advanced u (exec_advanced_of_setsPc he hr hset hk)]
      exact exec_pc_le he hwf hset hk hr hpc hs

theorem Inv.beginStep (h : Inv s) : Inv s.beginStep :=
  ⟨h.mem_wf, h.pc_le, h.stack_le, h.running_no_fault, h.record_wf⟩

theorem Inv.execState (h : Inv s) : Inv (execState s w) :=
  ⟨h.mem_wf, h.pc_le, h.stack_le, h.running_no_fault, h.record_wf⟩

theorem Inv.raise {c : Condition} {a : Option Nat} (h : Inv s) (hrecord : RecordWf s.pc ⟨c, s.pc, s.sig.word, a⟩) :
    Inv (s.raise c a) :=
  ⟨h.mem_wf, h.pc_le, h.stack_le, nofun, fun _ hr => Option.some.inj hr ▸ hrecord⟩

/-- Settles O22: a step that halts keeps every part the invariant reads and leaves a well-formed record; one that
completes keeps memory, stack and `pc` in range, and the record is no instruction's to change. -/
theorem stepKeepsInvariant : Obligations.StepKeepsInvariant := by
  intro s t hinv h
  cases ht : t.run with
  | halted =>
    obtain ⟨a, -, ha, rfl⟩ | ⟨w, c, a, -, rfl, hrecord⟩ := step_halted h ht
    · exact hinv.beginStep.raise (by simpa [RecordWf] using ha)
    · exact hinv.execState.raise hrecord
  | running =>
    obtain ⟨w, i, u, ⟨hr, hf, hd⟩, he, hframe, rfl⟩ := step_running h ht
    have hpc : s.pc.toNat ≤ 0xFFE := ((State.fetch_ok_iff s w).mp hf).1
    have hwf : i.wf = true := (encodeOfDecode w i hd).1
    have hfault : u.fault = none :=
      (hframe .faultRecord (by cases i <;> simp [mayChange])).trans (hinv.running_no_fault hr)
    have hmem := exec_mem_wf he hinv.mem_wf
    have hstack := exec_stackLe he hpc hinv.stack_le
    have hend := endStep_pc_le he hwf (by rwa [State.endStep_run] at ht) hpc hinv.stack_le
    rw [State.endStep_eq] at hend ⊢
    exact ⟨hmem, hend, hstack, fun _ => hfault, fun r hr => nomatch hr.symm.trans hfault⟩

end Sys2Proof.Machine

/-! # Which instruction reads which input (R108) -/

namespace Sys2Proof.Machine

variable {s t u : State} {w : Word} {i : Instr} {p q : StepInput}

/-- The state with other inputs sampled for the step. -/
def State.resample (s : State) (p : StepInput) : State :=
  { s with sig := { s.sig with keys := p.keys, rand8 := p.rand8 } }

/-- The instructions that read the keypad snapshot. -/
def readsKeys (i : Instr) : Prop := ∃ x, i = .skp x ∨ i = .sknp x ∨ i = .ldVxK x

/-- The instruction that reads the random byte. -/
def readsRand (i : Instr) : Prop := ∃ x nn, i = .rnd x nn

theorem keyDown_resample (h : p.keys = s.sig.keys) : keyDown (s.resample p) = keyDown s := by
  funext k
  simp [keyDown, State.resample, h]

theorem chosenKey_resample (h : p.keys = s.sig.keys) : chosenKey (s.resample p) = chosenKey s := by
  simp only [chosenKey, keysDown, keyDown_resample h]
  rfl

theorem push?_resample {a : Word} : (s.resample p).push? a = (s.push? a).map (State.resample · p) := by
  by_cases h : s.sp.val < 16 <;> simp [State.push?, State.resample, h]

theorem pop?_resample : (s.resample p).pop? = s.pop?.map fun e => (e.1, e.2.resample p) := by
  by_cases h : 0 < s.sp.val <;> simp [State.pop?, State.resample, h]

theorem readBlock_resample {a n : Nat} : readBlock (s.resample p) a n = readBlock s a n := by
  induction n with
  | zero => rfl
  | succ k ih => simp only [readBlock, ih]; rfl

/-- Other inputs sampled change nothing an instruction does, where it reads only inputs that are the same. -/
theorem exec_resample (h : exec i s = .next t) (hkeys : readsKeys i → p.keys = s.sig.keys)
    (hrand : readsRand i → p.rand8 = s.sig.rand8) : exec i (s.resample p) = .next (t.resample p) := by
  cases i with
  | rnd x nn =>
    cases h
    have hsame : (s.resample p).sig.rand8 = s.sig.rand8 := hrand ⟨x, nn, rfl⟩
    simp only [exec, execRnd, hsame]
    rfl
  | skp x | sknp x =>
    cases h
    have hsame := keyDown_resample (s := s) (hkeys ⟨x, by simp⟩)
    have hreg : (s.resample p).reg x = s.reg x := rfl
    simp only [exec, execSkp, execSknp, hsame, hreg]
    split <;> rfl
  | ldVxK x =>
    cases h
    have hsame := chosenKey_resample (s := s) (hkeys ⟨x, by simp⟩)
    simp only [exec, execLdVxK, hsame]
    split <;> rfl
  | ret =>
    simp only [exec, execRet, pop?_resample] at h ⊢
    split at h <;> cases h <;> simp only [*, Option.map] <;> rfl
  | call nnn =>
    have hpc : (s.resample p).pc = s.pc := rfl
    simp only [exec, execCall, push?_resample, hpc] at h ⊢
    split at h <;> cases h <;> simp only [*, Option.map] <;> rfl
  | ldB x | storeRegs x | loadRegs x | drw x y n =>
    have hbase : indexBase (s.resample p) = indexBase s := rfl
    simp only [exec, execLdB, execStoreRegs, execLoadRegs, execDrw, hbase, readBlock_resample] at h ⊢
    split at h <;> cases h <;> rfl
  | _ => cases h; rfl

theorem endStep_resample : (s.resample p).endStep = s.endStep.resample p := by
  by_cases h : s.run = .running ∧ s.sig.advanced = false <;> simp [State.endStep, State.resample, h]

/-- A step under other inputs is the same step with those inputs in its signals, where it runs no instruction that reads
an input that differs. -/
theorem step_resample {rest : List StepInput} (h : step { s with inputs := p :: rest } = .next t)
    (hkeys : ∀ w i, Runs s w i → readsKeys i → q.keys = p.keys)
    (hrand : ∀ w i, Runs s w i → readsRand i → q.rand8 = p.rand8) :
    step { s with inputs := q :: rest } = .next (t.resample q) := by
  obtain ⟨hr, ⟨a, hf, rfl⟩ | ⟨w, e, hf, hd, rfl⟩ | ⟨w, i, u, hf, hd, he, rfl⟩⟩ := step_cases _ t h
  · exact step_of_fetch_error hr hf
  · exact step_of_decode_error hr hf hd
  · have hruns : Runs s w i := ⟨hr, hf, hd⟩
    rw [← endStep_resample]
    exact step_of_exec _ w i _ hr hf hd (exec_resample he (hkeys w i hruns) (hrand w i hruns))

/-- The signals of a step hold the inputs it took. -/
theorem step_sampled {rest : List StepInput} (h : step { s with inputs := p :: rest } = .next t) :
    t.sig.keys = p.keys ∧ t.sig.rand8 = p.rand8 := by
  obtain ⟨-, -, -, hkeys, hrand⟩ := stepConsumesOneInput _ t h
  exact ⟨hkeys, hrand⟩

/-- Settles O23: the second step is the first with its own random byte in its signals. -/
theorem randomByteReachesOnlyRnd : Obligations.RandomByteReachesOnlyRnd := by
  intro s t u k a b rest hno ht hu
  have hsame := step_resample (q := ⟨k, b⟩) ht (fun _ _ _ _ => rfl)
    (fun w i hruns ⟨x, nn, hi⟩ => absurd (hi ▸ hruns) (hno w x nn))
  cases hu.symm.trans hsame
  obtain ⟨rfl, -⟩ := step_sampled ht
  rfl

/-- Settles O24: the second step is the first with its own keypad snapshot in its signals. -/
theorem keypadReachesOnlyKeyInstructions : Obligations.KeypadReachesOnlyKeyInstructions := by
  intro s t u j k a rest hno ht hu
  have hkeys (w i) (hruns : Runs s w i) : ¬ readsKeys i := by
    rintro ⟨x, rfl | rfl | rfl⟩
    · exact (hno w x).1 hruns
    · exact (hno w x).2.1 hruns
    · exact (hno w x).2.2 hruns
  have hsame := step_resample (q := ⟨k, a⟩) ht (fun w i hruns hi => absurd hi (hkeys w i hruns))
    (fun _ _ _ _ => rfl)
  cases hu.symm.trans hsame
  obtain ⟨-, rfl⟩ := step_sampled ht
  rfl

end Sys2Proof.Machine

/-! # Waiting (R107, R109) -/

namespace Sys2Proof.Machine

variable {s t : State} {w : Word} {i : Instr} {k : Nat}

/-- After `k` steps only the parts phase 1 changes have moved, and each timer has counted `k` down to 0. -/
def Waited (k : Nat) (s t : State) : Prop :=
  Frame startParts s t ∧ t.dt.toNat = s.dt.toNat - k ∧ t.st.toNat = s.st.toNat - k

theorem waited_zero : Waited 0 s s := ⟨fun p _ => by cases p <;> simp [Part.same], rfl, rfl⟩

theorem Waited.trans {j : Nat} {u : State} (hst : Waited j s t) (htu : Waited k t u) : Waited (k + j) s u := by
  obtain ⟨hframe, hdt, hstim⟩ := hst
  obtain ⟨hframe', hdt', hstim'⟩ := htu
  exact ⟨(hframe.trans hframe').mono (by simp), by omega, by omega⟩

/-- The machine holds: the instruction at `pc` leaves everything but its signal as phase 1 left it. -/
def Holds (s : State) (w : Word) (i : Instr) : Prop :=
  Runs s w i ∧ exec i (execState s w) = .next (execState s w).hold

theorem waited_hold : Waited 1 s (execState s w).hold :=
  ⟨(frame_execState.trans frame_hold).mono (by simp), tick_toNat _, tick_toNat _⟩

theorem Holds.step (h : Holds s w i) : step s = .next (execState s w).hold := by
  obtain ⟨⟨hr, hf, hd⟩, he⟩ := h
  rw [step_of_exec s w i _ hr hf hd he, State.endStep_of_advanced _ rfl]

/-- The same instruction runs in the next step. -/
theorem Holds.runs (h : Holds s w i) : Runs (execState s w).hold w i := h.1

theorem run_succ_of_step (h : step s = .next t) : Sys2Proof.core.run (k + 1) s = Sys2Proof.core.run k t := by
  have hcore : Sys2Proof.core.step s = .next t := h
  simp only [Host.Core.run, hcore]

/-- A condition `P k`, under which the machine holds and after which `P (k - 1)` is true, keeps it waiting for `k`
steps. -/
theorem run_of_holds {P : Nat → State → Prop}
    (hP : ∀ k s, P (k + 1) s → ∃ w i, Holds s w i ∧ P k (execState s w).hold) (k : Nat) (s : State) (h : P k s) :
    ∃ t, Sys2Proof.core.run k s = .next t ∧ Waited k s t := by
  induction k generalizing s with
  | zero => exact ⟨s, rfl, waited_zero⟩
  | succ k ih =>
    obtain ⟨w, i, hholds, hnext⟩ := hP k s h
    obtain ⟨t, hrun, hwaited⟩ := ih _ hnext
    exact ⟨t, (run_succ_of_step hholds.step).trans hrun, waited_hold.trans hwaited⟩

/-- A jump to its own address holds. -/
theorem holds_of_jp_self (h : Runs s w (.jp s.pc.toNat)) : Holds s w (.jp s.pc.toNat) := by
  have htarget : addrOperand s.pc.toNat = (execState s w).pc := by simp [addrOperand]
  exact ⟨h, by simp only [exec, execJp, htarget]; rfl⟩

/-- Settles O25: a jump to itself holds, and runs again in the state it leaves. -/
theorem idleLoopOnlyCountsTimers : Obligations.IdleLoopOnlyCountsTimers := by
  intro k s hidle
  refine run_of_holds (P := fun _ => IdleAt) (fun _ s hs => ?_) k s hidle
  obtain ⟨w, hruns⟩ := hs
  have hholds := holds_of_jp_self hruns
  exact ⟨w, _, hholds, w, hholds.runs⟩

/-- One step without a key uses up one of the inputs fixed so. -/
theorem NoKeyFor.next (h : NoKeyFor (k + 1) s) : s.nextInput.keys = 0 ∧ NoKeyFor k (execState s w).hold := by
  obtain ⟨hlen, hkeys⟩ := h
  cases hin : s.inputs with
  | nil => simp [hin] at hlen
  | cons p rest =>
    have htail : (execState s w).hold.inputs = rest := by simp [execState, hin]
    simp only [hin, List.length_cons, List.take_succ_cons, List.forall_mem_cons] at hlen hkeys
    refine ⟨by simpa [State.nextInput, hin] using hkeys.1, ?_, ?_⟩
    · rw [htail]; omega
    · rw [htail]; exact hkeys.2

/-- Settles O26: `FX0A` holds while no key is down, and runs again in the state it leaves. -/
theorem keyWaitRepeatsUntilKeyDown : Obligations.KeyWaitRepeatsUntilKeyDown := by
  intro k s w x hruns hno
  refine run_of_holds (P := fun k s => Runs s w (.ldVxK x) ∧ NoKeyFor k s) (fun k s hs => ?_) k s ⟨hruns, hno⟩
  obtain ⟨hruns, hno⟩ := hs
  obtain ⟨hkeys, hrest⟩ := hno.next (w := w)
  have hholds : Holds s w (.ldVxK x) := ⟨hruns, exec_ldVxK_of_no_key hkeys⟩
  exact ⟨w, _, hholds, hholds.runs, hrest⟩

end Sys2Proof.Machine

/-! # Frames over every instruction -/

namespace Sys2Proof.Machine

variable {s t : State} {i : Instr} {x : RegIdx} {b : Byte} {f : Bool}

theorem regsExcept_setResult : RegsExcept [x, 15] s (s.setResult x b f) := by
  intro r hr
  have hx : r ≠ x := fun h => hr (by simp [h])
  have hvf : r ≠ 15 := fun h => hr (by simp [h])
  rw [State.setResult_reg, if_neg hvf, if_neg hx]

/-- A block load writes the registers up to its last alone (R196). -/
theorem setRegs_readBlock_reg {a : Nat} (r : RegIdx) :
    (s.setRegs (readBlock s a (x.val + 1))).reg r = if r ≤ x then s.byteAt (a + r.val) else s.reg r := by
  simp only [State.reg, State.setRegs_v, readBlock_getElem s a _ _ r.isLt, Nat.lt_succ_iff, Fin.le_def]

/-- Settles O27: an instruction whose registers are not among its parts writes none; the others write through
`State.setReg`, `State.setResult`, `State.setVF` or one block load. -/
theorem onlyListedWritersChangeRegisters : Obligations.OnlyListedWritersChangeRegisters := by
  intro i s t h
  by_cases hown : .regs ∈ mayChange i
  · cases i with
    | ldImm | addImm | ldReg | orReg | andReg | xorReg | rnd | ldVxDt => cases h; exact regsExcept_setReg
    | addReg | subReg | shr | subn | shl => cases h; exact regsExcept_setResult
    | ldVxK =>
      cases h
      split
      · exact fun r _ => rfl
      · exact regsExcept_setReg
    | loadRegs x =>
      simp only [exec, execLoadRegs] at h
      split at h <;> cases h
      · exact fun r _ => rfl
      · intro r hr
        rw [setRegs_readBlock_reg, if_neg (by simpa [writtenRegs] using hr)]
    | drw =>
      simp only [exec, execDrw] at h
      split at h <;> cases h
      · exact fun r _ => rfl
      · exact regsExcept_setReg (x := 15)
    | _ => simp [mayChange] at hown
  · exact fun r _ => exec_same h hown (by simp) r

/-- Settles O28: an instruction that changed the run status took a fatal condition, which changes nothing else. -/
theorem eachInstructionChangesOnlyItsParts : Obligations.EachInstructionChangesOnlyItsParts := by
  intro i s t hs h
  refine ⟨exec_frame_of_running h, fun ht => ?_⟩
  obtain ⟨c, a, rfl, -⟩ := exec_halted h hs ht
  exact frame_raise

end Sys2Proof.Machine

/-! # Skips on registers and keys -/

namespace Sys2Proof.Machine

variable {s : State} {x : RegIdx}

/-- Settles O35: both skips are R140's mechanism, on the comparison of two registers (R143, R144). -/
theorem registerSkips : Obligations.RegisterSkips :=
  fun _ _ _ => ⟨exec_of_skipIf rfl beq_iff_eq, exec_of_skipIf rfl bne_iff_ne⟩

theorem exec_skp_of_le (h : (s.reg x).toNat ≤ 15) :
    exec (.skp x) s = .next (s.skipIf (keyDown s (s.reg x).toNat)) := by
  simp only [exec, execSkp, if_pos h]

theorem exec_sknp_of_le (h : (s.reg x).toNat ≤ 15) :
    exec (.sknp x) s = .next (s.skipIf (!keyDown s (s.reg x).toNat)) := by
  simp only [exec, execSknp, if_pos h]

/-- Settles O36: both skips are R140's mechanism, on the key of a number that has one (R145, R146). -/
theorem keySkips : Obligations.KeySkips :=
  fun _ _ hkey =>
    ⟨exec_of_skipIf (exec_skp_of_le hkey) Iff.rfl,
      exec_of_skipIf (exec_sknp_of_le hkey) (Iff.of_eq (Bool.not_eq_true' _))⟩

/-- Settles O37: both raise KeyIndexOutOfRange on a number that is no key's. -/
theorem keySkipsTrapOnBadIndex : Obligations.KeySkipsTrapOnBadIndex := by
  intro x s hkey
  have hgt : ¬ (s.reg x).toNat ≤ 15 := Nat.not_le.mpr hkey
  constructor
  · exact ⟨s.raise _ _, by simp only [exec, execSkp, if_neg hgt], haltedBy_raise .keyIndexOutOfRange none⟩
  · exact ⟨s.raise _ _, by simp only [exec, execSknp, if_neg hgt], haltedBy_raise .keyIndexOutOfRange none⟩

end Sys2Proof.Machine

/-! # Results with flags, logic and the random byte -/

namespace Sys2Proof.Machine

variable {s : State} {i : Instr} {x : RegIdx} {b : Byte} {f : Bool} {P Q : Byte → Prop}

/-- What every instruction that writes a result and a flag does, for any facts `P` and `Q` about the two bytes, when the
destination is not `VF` (R161). -/
theorem exec_of_setResult (hx : x ≠ 15) (he : exec i s = .next (s.setResult x b f)) (hb : P b) (hf : Q (flagByte f)) :
    ∃ t, exec i s = .next t ∧ P (t.reg x) ∧ Q (t.reg 15) ∧ RegsExcept [x, 15] s t ∧ Frame [.regs] s t := by
  refine ⟨_, he, ?_, ?_, regsExcept_setResult, frame_setResult⟩
  · rwa [State.setResult_reg, if_neg hx, if_pos rfl]
  · rwa [State.setResult_reg, if_pos rfl]

/-- What every instruction that writes a result and a flag does when the destination is `VF`: the flag is written last
(R161, D7). -/
theorem exec_of_setResult_vf (he : exec i s = .next (s.setResult 15 b f)) (hf : Q (flagByte f)) :
    ∃ t, exec i s = .next t ∧ Q (t.reg 15) ∧ RegsExcept [15] s t ∧ Frame [.regs] s t := by
  refine ⟨_, he, ?_, fun r hr => regsExcept_setResult r (by simpa using hr), frame_setResult⟩
  rwa [State.setResult_reg, if_pos rfl]

theorem flagByte_addCarry (a b : Byte) : flagByte (addCarry a b) = if a.toNat + b.toNat > 255 then 1 else 0 := by
  simp only [flagByte, addCarry_iff, gt_iff_lt]

theorem flagByte_subNoBorrow (a b : Byte) : flagByte (subNoBorrow a b) = if a.toNat > b.toNat then 1 else 0 := by
  simp only [flagByte, subNoBorrow_iff, gt_iff_lt]

/-- The shift operand, as the claims choose it (R170, D8). -/
theorem shiftOperand_eq (s : State) (x y : RegIdx) :
    shiftOperand s x y = if s.cfg.shiftSrc = .vx then s.reg x else s.reg y := by
  unfold shiftOperand
  cases s.cfg.shiftSrc <;> rfl

/-- Settles O40: `8XY4` is one `State.setResult` of the sum and the carry (R168). -/
theorem addSetsCarry : Obligations.AddSetsCarry := by
  intro x y s hx
  exact exec_of_setResult (P := fun r => r.toNat = ((s.reg x).toNat + (s.reg y).toNat) % 256) (Q := (· = _)) hx rfl
    (addResult_toNat _ _) (flagByte_addCarry _ _)

/-- Settles O41: each is one `State.setResult` of the difference and the strict comparison, with the operands in its own
order (R169, R171). -/
theorem subtractionsSetNoBorrow : Obligations.SubtractionsSetNoBorrow := by
  intro x y s hx
  constructor
  · exact exec_of_setResult (P := fun r => r.toNat = ((s.reg x).toNat + 256 - (s.reg y).toNat) % 256) (Q := (· = _))
      hx rfl (subResult_toNat _ _) (flagByte_subNoBorrow _ _)
  · exact exec_of_setResult (P := fun r => r.toNat = ((s.reg y).toNat + 256 - (s.reg x).toNat) % 256) (Q := (· = _))
      hx rfl (subResult_toNat _ _) (flagByte_subNoBorrow _ _)

/-- Settles O42: each is one `State.setResult` of the shifted operand and the bit moved out (R170, R172). -/
theorem shiftsMoveOneBitOut : Obligations.ShiftsMoveOneBitOut := by
  intro x y s a hx ha
  obtain rfl : a = shiftOperand s x y := ha.trans (shiftOperand_eq s x y).symm
  constructor
  · exact exec_of_setResult (P := fun r => r.toNat = _) (Q := fun r => r.toNat = _) hx rfl
      (shrResult_toNat _) (shrOut_toNat _)
  · exact exec_of_setResult (P := fun r => r.toNat = _) (Q := fun r => r.toNat = _) hx rfl
      (shlResult_toNat _) (shlOut_toNat _)

/-- Settles O43: each is one `State.setResult`, whose second write lands on the first. -/
theorem flagWinsWhenDestinationIsVF : Obligations.FlagWinsWhenDestinationIsVF := by
  intro y s a ha
  obtain rfl : a = shiftOperand s 15 y := ha.trans (shiftOperand_eq s 15 y).symm
  refine ⟨?_, ?_, ?_, ?_, ?_⟩
  · exact exec_of_setResult_vf (Q := (· = _)) rfl (flagByte_addCarry _ _)
  · exact exec_of_setResult_vf (Q := (· = _)) rfl (flagByte_subNoBorrow _ _)
  · exact exec_of_setResult_vf (Q := (· = _)) rfl (flagByte_subNoBorrow _ _)
  · exact exec_of_setResult_vf (Q := fun r => r.toNat = _) rfl (shrOut_toNat _)
  · exact exec_of_setResult_vf (Q := fun r => r.toNat = _) rfl (shlOut_toNat _)

/-- Settles O39: each is one `State.setReg`, of a byte whose bits are the operands' (R165 to R167). -/
theorem logicOperationsWriteNoFlag : Obligations.LogicOperationsWriteNoFlag := by
  intro x y s
  refine ⟨?_, ?_, ?_⟩
  · exact exec_of_setReg (P := fun r => ∀ k, r.getLsbD k = ((s.reg x).getLsbD k || (s.reg y).getLsbD k)) rfl
      fun _ => BitVec.getLsbD_or
  · exact exec_of_setReg (P := fun r => ∀ k, r.getLsbD k = ((s.reg x).getLsbD k && (s.reg y).getLsbD k)) rfl
      fun _ => BitVec.getLsbD_and
  · exact exec_of_setReg (P := fun r => ∀ k, r.getLsbD k = ((s.reg x).getLsbD k ^^ (s.reg y).getLsbD k)) rfl
      fun _ => BitVec.getLsbD_xor

/-- Settles O44: `CXNN` is one `State.setReg` of the immediate and the random byte, bit by bit (R173). -/
theorem randomByteIsMasked : Obligations.RandomByteIsMasked := by
  intro x nn s
  have houtside : nn &&& s.sig.rand8 &&& ~~~nn = 0 := by ext k hk; simp; tauto
  have hle : (nn &&& s.sig.rand8).toNat ≤ nn.toNat := Nat.and_le_left
  obtain ⟨t, he, hreg, hregs, hframe⟩ := exec_of_setReg (i := .rnd x nn) (P := (· = nn &&& s.sig.rand8)) rfl rfl
  exact ⟨t, he, hreg, hreg ▸ houtside, hreg ▸ hle, hregs, hframe⟩

end Sys2Proof.Machine

/-! # Blocks of memory -/

namespace Sys2Proof.Machine

variable {s t : State} {x y : RegIdx} {a : Nat} {bs : List Byte}

/-! ## The two sides of the block check (R190) -/

theorem firstOutOfRange_of_fits {len : Nat} (h : len = 0 ∨ a + len ≤ 0x1000) : firstOutOfRange a len = none :=
  (firstOutOfRange_eq_none a len).mpr h

theorem exec_ldB_of_fits (h : s.i.toNat + 2 ≤ 0xFFF) :
    exec (.ldB x) s = .next (s.storeBytes s.i.toNat (bcdDigits (s.reg x))) := by
  simp only [exec, execLdB, indexBase, firstOutOfRange_of_fits (a := s.i.toNat) (len := 3) (by omega)]

theorem exec_storeRegs_of_fits (h : s.i.toNat + x.val ≤ 0xFFF) :
    exec (.storeRegs x) s = .next (s.storeBytes s.i.toNat (regBlock s x)) := by
  simp only [exec, execStoreRegs, indexBase, firstOutOfRange_of_fits (a := s.i.toNat) (len := x.val + 1) (by omega)]

theorem exec_loadRegs_of_fits (h : s.i.toNat + x.val ≤ 0xFFF) :
    exec (.loadRegs x) s = .next (s.setRegs (readBlock s s.i.toNat (x.val + 1))) := by
  simp only [exec, execLoadRegs, indexBase, firstOutOfRange_of_fits (a := s.i.toNat) (len := x.val + 1) (by omega)]

/-- Settles O51: each of the four checks its whole block first, and answers with the condition alone. -/
theorem blocksTrapOutOfRange : Obligations.BlocksTrapOutOfRange := by
  rintro x y n s a rfl
  have hfirst {len : Nat} (hlen : len ≠ 0) (hout : 0x1000 < s.i.toNat + len) :
      firstOutOfRange (indexBase s) len = some (if 0x1000 ≤ s.i.toNat then s.i.toNat else 0x1000) :=
    (firstOutOfRange_eq_some _ _ _).mpr ⟨hlen, hout, rfl⟩
  refine ⟨fun h => ?_, fun h => ?_, fun h => ?_, fun hn h => ?_⟩
  · exact ⟨_, by simp only [exec, execLdB, hfirst (len := 3) (by omega) (by omega)], haltedBy_raise _ _⟩
  · exact ⟨_, by simp only [exec, execStoreRegs, hfirst (len := x.val + 1) (by omega) (by omega)], haltedBy_raise _ _⟩
  · exact ⟨_, by simp only [exec, execLoadRegs, hfirst (len := x.val + 1) (by omega) (by omega)], haltedBy_raise _ _⟩
  · exact ⟨_, by simp only [exec, execDrw, hfirst (len := n) (by omega) (by omega)], haltedBy_raise _ _⟩

/-! ## Bytes after a store (R67) -/

theorem storeBytes_byteAt_inside (hm : Memory.wf s.cfg s.mem = true) (hfits : a + bs.length ≤ 0x1000) {j : Nat}
    (hj : j < bs.length) : (s.storeBytes a bs).byteAt (a + j) = bs[j] :=
  Memory.read_writeBytes_inside s.cfg bs s.mem a j hfits hm hj

theorem memoryExcept_storeBytes : MemoryExcept a bs.length s (s.storeBytes a bs) :=
  fun k hk => Memory.read_writeBytes_outside s.cfg bs s.mem a k hk

/-- Settles O47: `FX33` is one store of the byte's three decimal digits (R194). -/
theorem bcdStoresThreeDigits : Obligations.BcdStoresThreeDigits := by
  intro x s hm hfits
  obtain ⟨h, t, o, hdigits, hvalue, hh, ht, ho⟩ := bcdDigits_toNat (s.reg x)
  have hin {j : Nat} (hj : j < 3) : (s.storeBytes s.i.toNat [h, t, o]).byteAt (s.i.toNat + j) = [h, t, o][j] :=
    storeBytes_byteAt_inside hm (by simp; omega) hj
  have hbyte0 : (s.storeBytes s.i.toNat [h, t, o]).byteAt s.i.toNat = h := hin (j := 0) (by omega)
  have hbyte1 : (s.storeBytes s.i.toNat [h, t, o]).byteAt (s.i.toNat + 1) = t := hin (by omega)
  have hbyte2 : (s.storeBytes s.i.toNat [h, t, o]).byteAt (s.i.toNat + 2) = o := hin (by omega)
  refine ⟨_, exec_ldB_of_fits hfits, ?_⟩
  rw [hdigits, hbyte0, hbyte1, hbyte2]
  refine ⟨hvalue, hh, ht, ho, ?_, frame_storeBytes⟩
  rintro a rfl
  exact memoryExcept_storeBytes (bs := [h, t, o])

/-- Settles O48: `FX55` is one store of the register block (R195). -/
theorem registerBlockStore : Obligations.RegisterBlockStore := by
  intro x s hm hfits
  have hlen := regBlock_length s x
  refine ⟨_, exec_storeRegs_of_fits hfits, fun r hr => ?_, ?_, frame_storeBytes⟩
  · have hj : r.val < (regBlock s x).length := by rw [hlen]; exact Nat.lt_succ_of_le hr
    rw [storeBytes_byteAt_inside hm (by omega) hj, regBlock_getElem]
  · rintro a rfl
    rw [← hlen]
    exact memoryExcept_storeBytes

/-- Settles O49: `FX65` is one write of the register file, as the block load leaves it (R196). -/
theorem registerBlockLoad : Obligations.RegisterBlockLoad := by
  intro x s hfits
  refine ⟨_, exec_loadRegs_of_fits hfits, fun r hr => ?_, fun r hr => ?_, frame_setRegs⟩
  · rw [setRegs_readBlock_reg, if_pos hr]
  · rw [setRegs_readBlock_reg, if_neg (Fin.not_le.mpr hr)]

/-- Settles O50: the load (O49) reads the bytes the store (O48) wrote. -/
theorem storeThenLoadRestoresRegisters : Obligations.StoreThenLoadRestoresRegisters := by
  intro x s t u hm hfits hstore hi hcfg hmem
  obtain ⟨t', hstore', hstored, -, hframe⟩ := registerBlockStore x s hm hfits
  cases hstore.symm.trans hstore'
  have hbyte (k : Nat) : u.byteAt k = t.byteAt k := by
    rw [State.byteAt, State.byteAt, hcfg, hmem, hframe .parameters (by simp)]
  obtain ⟨v, hload, hloaded, -⟩ := registerBlockLoad x u (hi ▸ hfits)
  exact ⟨v, hload, fun r hr => by rw [hloaded r hr, hbyte, hi, hstored r hr]⟩

/-! ## Stores and the next fetch (R76) -/

theorem storedByte_storeBytes (hm : Memory.wf s.cfg s.mem = true) (hfits : s.i.toNat + bs.length ≤ 0x1000) :
    StoredByte s bs a ((s.storeBytes s.i.toNat bs).byteAt a) := by
  constructor
  · rintro k hk rfl
    exact storeBytes_byteAt_inside hm hfits hk
  · intro hout
    refine memoryExcept_storeBytes a ?_
    by_contra hin
    exact hout (a - s.i.toNat) (by omega) (by omega)

/-- A step whose instruction is one store at `I` goes on to fetch the next word from the memory it left. -/
theorem nextFetchReads_of_store {w : Word} {i : Instr} (hm : Memory.wf s.cfg s.mem = true)
    (hpc : s.pc.toNat + 3 ≤ 0xFFF) (hruns : Runs s w i) (hfits : s.i.toNat + bs.length ≤ 0x1000)
    (he : exec i (execState s w) = .next ((execState s w).storeBytes s.i.toNat bs)) : NextFetchReads s bs := by
  obtain ⟨hr, hf, hd⟩ := hruns
  have hstep := step_of_exec s w i _ hr hf hd he
  rw [State.endStep_of_running ((execState s w).storeBytes s.i.toNat bs) hr rfl] at hstep
  have hnext : (s.pc + 2).toNat = s.pc.toNat + 2 := by simp; omega
  refine ⟨_, _, _, hstep, hr, State.fetch_ok _ (show (s.pc + 2).toNat ≤ 0xFFE by omega), ?_, ?_⟩
  · rw [← hnext]
    exact storedByte_storeBytes hm hfits
  · rw [show s.pc.toNat + 3 = (s.pc + 2).toNat + 1 by omega]
    exact storedByte_storeBytes hm hfits

/-- Settles O52: `FX55` and `FX33` are each one store at `I`. -/
theorem storedWordIsFetchedNext : Obligations.StoredWordIsFetchedNext := by
  refine fun s w x hm hpc => ⟨fun hruns hfits => ?_, fun hruns hfits => ?_⟩
  · exact nextFetchReads_of_store hm hpc hruns (by rw [regBlock_length]; omega) (exec_storeRegs_of_fits hfits)
  · exact nextFetchReads_of_store hm hpc hruns (by simp [bcdDigits]; omega) (exec_ldB_of_fits hfits)

/-! ## The canonical form (log 36) -/

/-- The first listed address reads differently in a memory that lists only later ones. -/
theorem Memory.read_head_ne {c : Config} {k : Nat} {v : Byte} {m q : Memory}
    (hm : Memory.wf c ((k, v) :: m) = true) (hq : ∀ e ∈ q, k < e.1) :
    Memory.read c ((k, v) :: m) k ≠ Memory.read c q k := by
  obtain ⟨-, hv, -, -⟩ := (Memory.wf_cons c k v m).mp hm
  simpa [Memory.read, Memory.read_unlisted c q k hq] using hv

/-- Settles O53: the first entries of two memories that read alike are equal, and so the rests read alike. -/
theorem canonicalMemoriesReadingAlikeAreEqual : Obligations.CanonicalMemoriesReadingAlikeAreEqual := by
  intro c m
  induction m with
  | nil =>
    intro q _ hq halike
    cases q with
    | nil => rfl
    | cons e q => exact absurd (halike e.1).symm (Memory.read_head_ne hq (by simp))
  | cons d m ih =>
    intro q hm hq halike
    cases q with
    | nil => exact absurd (halike d.1) (Memory.read_head_ne hm (by simp))
    | cons e q =>
      obtain ⟨j, v⟩ := d
      obtain ⟨k, b⟩ := e
      obtain ⟨-, -, hmlt, hmwf⟩ := (Memory.wf_cons c j v m).mp hm
      obtain ⟨-, -, hqlt, hqwf⟩ := (Memory.wf_cons c k b q).mp hq
      obtain hlt | rfl | hlt := Nat.lt_trichotomy j k
      · refine absurd (halike j) (Memory.read_head_ne hm (List.forall_mem_cons.mpr ⟨hlt, fun e he => ?_⟩))
        exact hlt.trans (hqlt e he)
      · have hhead : v = b := by simpa [Memory.read] using halike j
        have hrest (a : Nat) : Memory.read c m a = Memory.read c q a := by
          by_cases ha : a = j
          · rw [ha, Memory.read_unlisted c m j hmlt, Memory.read_unlisted c q j hqlt]
          · simpa [Memory.read, ha] using halike a
        rw [hhead, ih q hmwf hqwf hrest]
      · refine absurd (halike k).symm (Memory.read_head_ne hq (List.forall_mem_cons.mpr ⟨hlt, fun e he => ?_⟩))
        exact hlt.trans (hmlt e he)

/-- Settles O46: `FX1E` is one `State.setI` of the sum modulo 65536 (R192). -/
theorem indexAddWrapsAtSixteenBits : Obligations.IndexAddWrapsAtSixteenBits :=
  fun _ _ => exec_of_setI rfl (BitVec.toNat_ofNat _ _)

end Sys2Proof.Machine

/-! # Sprites (R211)

A sprite is a list of pixels, no two the same, and drawing it flips each of them once. -/

namespace Sys2Proof.Machine

variable {s t u : State} {cv : Canvas} {pts : List (Nat × Nat)} {a n x0 y0 y x : Nat}

/-! ## Plotting a list of pixels -/

/-- The set bits of a sprite drawn in turn, as row and column of their pixels. -/
def Canvas.plotAll (cv : Canvas) (pts : List (Nat × Nat)) : Canvas := pts.foldl (fun acc p => acc.plot p.1 p.2) cv

/-- The pixel is on the screen. -/
def OnScreen (p : Nat × Nat) : Prop := p.1 < 32 ∧ p.2 < 64

theorem plot_pixel {p q : Nat × Nat} (hp : OnScreen p) (hq : OnScreen q) :
    (cv.plot p.1 p.2).display.pixel q.1 q.2 = (cv.display.pixel q.1 q.2 ^^ decide (q = p)) := by
  obtain ⟨hp1, hp2⟩ := hp
  obtain ⟨hq1, hq2⟩ := hq
  simp only [Canvas.plot, Display.pixel_flip, Nat.mod_eq_of_lt, *, Prod.ext_iff]

/-- Each pixel of the list flips once, and no other. -/
theorem plotAll_pixel (hnd : pts.Nodup) (hon : ∀ p ∈ pts, OnScreen p) {q : Nat × Nat} (hq : OnScreen q) :
    (cv.plotAll pts).display.pixel q.1 q.2 = (cv.display.pixel q.1 q.2 ^^ decide (q ∈ pts)) := by
  induction pts generalizing cv with
  | nil => simp [Canvas.plotAll]
  | cons p pts ih =>
    obtain ⟨hp, hnd⟩ := List.nodup_cons.mp hnd
    obtain ⟨hpon, hon⟩ := List.forall_mem_cons.mp hon
    have hrest : (cv.plotAll (p :: pts)).display.pixel q.1 q.2 =
        ((cv.plot p.1 p.2).display.pixel q.1 q.2 ^^ decide (q ∈ pts)) := ih hnd hon
    rw [hrest, plot_pixel hpon hq, Bool.xor_assoc]
    by_cases hqp : q = p
    · simp [hqp, hp]
    · simp [hqp]

/-- A collision is a pixel of the list that was on before the first was plotted. -/
theorem plotAll_collision (hnd : pts.Nodup) (hon : ∀ p ∈ pts, OnScreen p) :
    (cv.plotAll pts).collision = true ↔ cv.collision = true ∨ ∃ p ∈ pts, cv.display.pixel p.1 p.2 = true := by
  induction pts generalizing cv with
  | nil => simp [Canvas.plotAll]
  | cons p pts ih =>
    obtain ⟨hp, hnd⟩ := List.nodup_cons.mp hnd
    obtain ⟨hpon, hon⟩ := List.forall_mem_cons.mp hon
    have hrest : (cv.plotAll (p :: pts)).collision = true ↔
        (cv.plot p.1 p.2).collision = true ∨ ∃ q ∈ pts, (cv.plot p.1 p.2).display.pixel q.1 q.2 = true := ih hnd hon
    have hsame (q) (hq : q ∈ pts) : (cv.plot p.1 p.2).display.pixel q.1 q.2 = cv.display.pixel q.1 q.2 := by
      have hne : q ≠ p := fun h => hp (h ▸ hq)
      simp [plot_pixel hpon (hon q hq), hne]
    have hplot : (cv.plot p.1 p.2).collision = true ↔ cv.collision = true ∨ cv.display.pixel p.1 p.2 = true := by
      simp [Canvas.plot]
    rw [hrest, hplot, List.exists_mem_cons_iff, or_assoc]
    exact or_congr_right (or_congr_right (exists_congr fun q => and_congr_right fun hq => by rw [hsame q hq]))

/-! ## The pixels of a sprite -/

/-- The pixels of one sprite row: where its set bits land. -/
def rowPoints (row : Byte) (py x0 : Nat) : List (Nat × Nat) :=
  ((List.range 8).filter fun c => row.getLsbD (7 - c)).map fun c => (py % 32, (x0 + c) % 64)

/-- The pixels of a sprite of `n` rows at address `a`. -/
def spritePoints (s : State) (a n x0 y0 : Nat) : List (Nat × Nat) :=
  (List.range n).flatMap fun r => rowPoints (s.byteAt (a + r)) (y0 + r) x0

theorem plot_mod (py px : Nat) : cv.plot (py % 32) (px % 64) = cv.plot py px := by
  simp [Canvas.plot, Display.flip, Display.pixel]

theorem drawRow_eq_plotAll (row : Byte) (py x0 : Nat) : cv.drawRow row py x0 = cv.plotAll (rowPoints row py x0) := by
  simp only [Canvas.drawRow, Canvas.plotAll, rowPoints, List.foldl_map, List.foldl_filter, plot_mod]

theorem drawRows_eq_plotAll : cv.drawRows s a n x0 y0 = cv.plotAll (spritePoints s a n x0 y0) := by
  simp only [Canvas.drawRows, drawRow_eq_plotAll, Canvas.plotAll, spritePoints, List.foldl_flatMap]

theorem mem_rowPoints {row : Byte} {py x0 : Nat} {p : Nat × Nat} :
    p ∈ rowPoints row py x0 ↔ ∃ c, c < 8 ∧ row.getLsbD (7 - c) = true ∧ p = (py % 32, (x0 + c) % 64) := by
  simp only [rowPoints, List.mem_map, List.mem_filter, List.mem_range, and_assoc, eq_comm (b := p)]

theorem mem_spritePoints : (y, x) ∈ spritePoints s a n x0 y0 ↔ spriteCovers s a n x0 y0 y x := by
  simp only [spritePoints, List.mem_flatMap, List.mem_range, mem_rowPoints, spriteCovers, Prod.mk.injEq]
  constructor
  · rintro ⟨r, hr, c, hc, hbit, hy, hx⟩
    exact ⟨r, c, hr, hc, hbit, hy, hx⟩
  · rintro ⟨r, c, hr, hc, hbit, hy, hx⟩
    exact ⟨r, hr, c, hc, hbit, hy, hx⟩

theorem spritePoints_onScreen {p : Nat × Nat} (hp : p ∈ spritePoints s a n x0 y0) : OnScreen p := by
  obtain ⟨r, c, -, -, -, hy, hx⟩ := mem_spritePoints.mp hp
  exact ⟨hy ▸ Nat.mod_lt _ (by decide), hx ▸ Nat.mod_lt _ (by decide)⟩

/-- Eight columns do not wrap onto themselves. -/
theorem rowPoints_nodup (row : Byte) (py x0 : Nat) : (rowPoints row py x0).Nodup := by
  refine List.Nodup.map_on (fun c hc d hd heq => ?_) (List.nodup_range.filter _)
  simp only [List.mem_filter, List.mem_range, Prod.mk.injEq] at hc hd heq
  omega

/-- Fifteen rows do not wrap onto themselves. -/
theorem spritePoints_nodup (hn : n ≤ 15) : (spritePoints s a n x0 y0).Nodup := by
  refine List.nodup_flatMap.mpr ⟨fun r _ => rowPoints_nodup _ _ _, ?_⟩
  refine List.nodup_range.pairwise_of_forall_ne fun r hr q hq hne p hpr hpq => hne ?_
  obtain ⟨c, -, -, rfl⟩ := mem_rowPoints.mp hpr
  obtain ⟨d, -, -, heq⟩ := mem_rowPoints.mp hpq
  simp only [List.mem_range, Prod.mk.injEq] at hr hq heq
  omega

/-! ## Drawing a sprite -/

/-- What `DXYN` draws: the sprite at `I`, `n` rows high, at `V[x]` and `V[y]`. -/
def drawn (s : State) (x y : RegIdx) (n : Nat) : Canvas :=
  (Canvas.mk s.display false).plotAll (spritePoints s s.i.toNat n (s.reg x).toNat (s.reg y).toNat)

/-- The sprite `DXYN` draws covers the pixel. -/
abbrev drawCovers (s : State) (x y : RegIdx) (n row col : Nat) : Prop :=
  spriteCovers s s.i.toNat n (s.reg x).toNat (s.reg y).toNat row col

theorem exec_drw_of_fits {x y : RegIdx} (h : n = 0 ∨ s.i.toNat + n - 1 ≤ 0xFFF) :
    exec (.drw x y n) s =
      .next (((s.setDisplay (drawn s x y n).display).setVF (flagByte (drawn s x y n).collision)).setRender) := by
  simp only [exec, execDrw, indexBase, firstOutOfRange_of_fits (a := s.i.toNat) (len := n) (by omega),
    drawRows_eq_plotAll]
  rfl

open Classical in
theorem drawn_pixel {x y : RegIdx} (hn : n ≤ 15) {row col : Nat} (hrow : row < 32) (hcol : col < 64) :
    (drawn s x y n).display.pixel row col = (s.display.pixel row col ^^ decide (drawCovers s x y n row col)) := by
  have hpixel := plotAll_pixel (cv := ⟨s.display, false⟩) (spritePoints_nodup (s := s) (a := s.i.toNat)
    (x0 := (s.reg x).toNat) (y0 := (s.reg y).toNat) hn) (fun _ => spritePoints_onScreen) (q := (row, col)) ⟨hrow, hcol⟩
  simp only [mem_spritePoints] at hpixel
  exact hpixel

theorem drawn_collision {x y : RegIdx} (hn : n ≤ 15) : (drawn s x y n).collision = true ↔
    ∃ row col, drawCovers s x y n row col ∧ s.display.pixel row col = true := by
  rw [drawn, plotAll_collision (spritePoints_nodup hn) fun _ => spritePoints_onScreen]
  simp [Prod.exists, mem_spritePoints]

theorem flagByte_eq_one_iff (c : Bool) : flagByte c = 1 ↔ c = true := by
  cases c <;> decide

theorem flagByte_eq_zero_iff (c : Bool) : flagByte c = 0 ↔ ¬ c = true := by
  cases c <;> decide

/-- Settles O55: the sprite's pixels are distinct, so each flips once, and a collision is one of them that was on. -/
theorem drawFlipsExactlyTheSprite : Obligations.DrawFlipsExactlyTheSprite := by
  classical
  intro x y n s hn hfits
  have hvf : ∀ b, (((s.setDisplay (drawn s x y n).display).setVF b).setRender).reg 15 = b := fun b => by simp
  refine ⟨_, exec_drw_of_fits hfits, fun row col hrow hcol => ?_, fun hon => ?_, fun hoff => ?_, rfl,
    regsExcept_setReg (s := s.setDisplay _), ?_⟩
  · have hpixel := drawn_pixel (s := s) (x := x) (y := y) hn hrow hcol
    rw [State.setRender_display, State.setVF_display, State.setDisplay_display, hpixel]
    cases s.display.pixel row col <;> simp
  · rw [hvf, flagByte_eq_one_iff, drawn_collision hn]
    exact hon
  · rw [hvf, flagByte_eq_zero_iff, drawn_collision hn]
    exact hoff
  · exact ((frame_setDisplay.trans frame_setVF).trans frame_setRender).mono (by simp)

/-! ## Drawing a sprite twice -/

theorem spriteCovers_congr (hmem : u.mem = s.mem) (hcfg : u.cfg = s.cfg) :
    spriteCovers u a n x0 y0 y x ↔ spriteCovers s a n x0 y0 y x := by
  simp only [spriteCovers, State.byteAt, hmem, hcfg]

/-- A sprite that covers no pixel has no set bit. -/
theorem exists_spriteCovers_iff : (∃ row col, spriteCovers s a n x0 y0 row col) ↔ ∃ r, r < n ∧ s.byteAt (a + r) ≠ 0 := by
  constructor
  · rintro ⟨-, -, r, c, hr, -, hbit, -⟩
    refine ⟨r, hr, fun hzero => ?_⟩
    simp [hzero] at hbit
  · rintro ⟨r, hr, hne⟩
    obtain ⟨k, hk, hbit⟩ : ∃ k, k < 8 ∧ (s.byteAt (a + r)).getLsbD k = true := by
      by_contra hnone
      push Not at hnone
      exact hne (BitVec.eq_of_getLsbD_eq fun k hk => by simpa using hnone k hk)
    exact ⟨_, _, r, 7 - k, hr, by omega, by rwa [show 7 - (7 - k) = k by omega], rfl, rfl⟩

theorem pixel_mod (d : Display) (y x : Nat) : d.pixel (y % 32) (x % 64) = d.pixel y x := by
  simp [Display.pixel]

theorem spriteCovers_onScreen (h : spriteCovers s a n x0 y0 y x) : y < 32 ∧ x < 64 :=
  spritePoints_onScreen (mem_spritePoints.mpr h)

/-- Settles O56: the second draw covers the same pixels, so it flips each back, and each was off in its own starting
display exactly where it was on in the first's. -/
theorem drawTwiceRestoresDisplay : Obligations.DrawTwiceRestoresDisplay := by
  classical
  intro x y p q n s t u hn hfits hdraw hdisplay hmem hcfg hi hp hq
  cases (exec_drw_of_fits hfits).symm.trans hdraw
  have hcovers (row col) : drawCovers u p q n row col ↔ drawCovers s x y n row col := by
    rw [drawCovers, hi, hp, hq, spriteCovers_congr hmem hcfg]
  have hfirst {row col} (hrow : row < 32) (hcol : col < 64) : u.display.pixel row col =
      (s.display.pixel row col ^^ decide (drawCovers s x y n row col)) := by
    rw [hdisplay]
    exact drawn_pixel hn hrow hcol
  have hrestored : (drawn u p q n).display = s.display := by
    refine Display.ext_pixel _ _ fun row col => ?_
    have hrow : row % 32 < 32 := Nat.mod_lt _ (by decide)
    have hcol : col % 64 < 64 := Nat.mod_lt _ (by decide)
    rw [← pixel_mod, ← pixel_mod s.display, drawn_pixel hn hrow hcol, hfirst hrow hcol]
    simp [hcovers]
  have hcollision : (drawn u p q n).collision = true ↔
      ∃ row col, drawCovers s x y n row col ∧ s.display.pixel row col = false := by
    rw [drawn_collision hn]
    refine exists_congr fun row => exists_congr fun col => ?_
    rw [hcovers]
    refine and_congr_right fun hc => ?_
    obtain ⟨hrow, hcol⟩ := spriteCovers_onScreen hc
    simp [hfirst hrow hcol, hc]
  refine ⟨_, exec_drw_of_fits (by rwa [hi]), hrestored, ?_⟩
  have hvf : ((((u.setDisplay (drawn u p q n).display).setVF (flagByte (drawn u p q n).collision)).setRender).reg 15)
    = flagByte (drawn u p q n).collision := by simp
  have hflag := (flagByte_eq_one_iff (drawn u p q n).collision).trans hcollision
  rw [hvf]
  refine ⟨?_, hflag, fun hblank => hflag.trans ?_⟩
  · cases (drawn u p q n).collision <;> simp
  · simp only [hblank, Display.pixel_blank, and_true]
    exact exists_spriteCovers_iff

end Sys2Proof.Machine

/-! # Timers over several steps, and the key `FX0A` takes -/

namespace Sys2Proof.Machine

variable {s : State}

/-- Settles O59: each start of a step decrements once (R101), and natural subtraction stops at 0 as the timers do. -/
theorem timersCountDownToZero : Obligations.TimersCountDownToZero := by
  intro j s
  induction j with
  | zero => exact ⟨rfl, rfl⟩
  | succ j ih =>
    obtain ⟨hdt, hst⟩ := ih
    rw [Function.iterate_succ_apply', State.beginStep_dt, State.beginStep_st, tick_toNat, tick_toNat, hdt, hst]
    exact ⟨Nat.sub_sub _ _ _, Nat.sub_sub _ _ _⟩

/-- Settles O58: the start that beeps is the one that decrements the timer to 1 (O59). -/
theorem soundTimerSetThenOneBeep : Obligations.SoundTimerSetThenOneBeep := by
  intro x s
  refine ⟨s.setST (s.reg x), rfl, rfl, frame_setST, fun j => ?_⟩
  obtain ⟨-, hst⟩ := timersCountDownToZero j (s.setST (s.reg x))
  have hone : (1 : Byte).toNat = 1 := rfl
  rw [Function.iterate_succ_apply', State.beginStep_sig_beep, decide_eq_true_iff, ← BitVec.toNat_inj, tick_toNat, hst,
    State.setST_st, hone]
  omega

theorem mem_keysDown {k : Nat} : k ∈ keysDown s ↔ keyDown s k = true := by
  simp only [keysDown, List.mem_filter, List.mem_range, and_iff_right_iff_imp]
  exact BitVec.lt_of_getLsbD

/-- The keys down are listed lowest first. -/
theorem keysDown_sorted : (keysDown s).Pairwise (· < ·) := List.pairwise_lt_range.filter _

/-- The key taken is one of those down, and under the default choice the first of them (R232, D6). -/
theorem chosenKey_eq_some {b : Byte} (h : chosenKey s = some b) :
    ∃ k, k ∈ keysDown s ∧ b = BitVec.ofNat 8 k ∧ (s.cfg.keyChoice = .lowest → (keysDown s).head? = some k) := by
  unfold chosenKey at h
  split at h
  · cases h
  · next k ks hkeys =>
    rw [hkeys]
    split at h <;> cases h
    · exact ⟨k, List.mem_cons_self, rfl, fun _ => rfl⟩
    · next hany =>
      have hlt : Config.freeKeyPick s.draw % (k :: ks).length < (k :: ks).length := Nat.mod_lt _ (by simp)
      refine ⟨_, ?_, rfl, fun hlow => by cases hlow.symm.trans hany⟩
      rw [List.getD_eq_getElem _ _ hlt]
      exact List.getElem_mem hlt

/-- The key taken is down, and under the default choice no lower one is. -/
theorem chosenKey_down {b : Byte} (h : chosenKey s = some b) :
    keyDown s b.toNat = true ∧ (s.cfg.keyChoice = .lowest → ∀ k, keyDown s k = true → b.toNat ≤ k) := by
  obtain ⟨j, hj, rfl, hfirst⟩ := chosenKey_eq_some h
  have hdown := mem_keysDown.mp hj
  have hnum : (BitVec.ofNat 8 j).toNat = j := by
    have hlt : j < 16 := BitVec.lt_of_getLsbD hdown
    rw [BitVec.toNat_ofNat, Nat.mod_eq_of_lt (by omega)]
  rw [hnum]
  refine ⟨hdown, fun hlow k hk => ?_⟩
  obtain ⟨ks, hks⟩ := List.head?_eq_some_iff.mp (hfirst hlow)
  have hsorted := keysDown_sorted (s := s)
  rw [← mem_keysDown, hks] at hk
  rw [hks, List.pairwise_cons] at hsorted
  obtain rfl | hk := List.mem_cons.mp hk
  · exact Nat.le_refl _
  · exact Nat.le_of_lt (hsorted.1 k hk)

/-- Settles O60: with no key down `FX0A` holds; otherwise it is one `State.setReg` of the key taken. -/
theorem keyWaitTakesAKeyDown : Obligations.KeyWaitTakesAKeyDown := by
  refine fun x s => ⟨fun hkeys => ?_, fun hkeys => ?_⟩
  · exact ⟨s.hold, exec_ldVxK_of_no_key hkeys, rfl, frame_hold⟩
  · obtain ⟨b, hb⟩ := Option.ne_none_iff_exists'.mp (mt (chosenKey_eq_none_iff s).mp hkeys)
    have he : exec (.ldVxK x) s = .next (s.setReg x b) := by simp only [exec, execLdVxK, hb]
    obtain ⟨t, ht, ⟨hdown, hlow⟩, hregs, hframe⟩ := exec_of_setReg (P := fun r => keyDown s r.toNat = true ∧
      (s.cfg.keyChoice = .lowest → ∀ k, keyDown s k = true → r.toNat ≤ k)) he (chosenKey_down hb)
    exact ⟨t, ht, hdown, hlow, hregs, hframe⟩

end Sys2Proof.Machine
